-- ==== Sys2Proof/Word.lean ====
section
/-! DEFINITION. The word types of the machine: 32-bit words, bytes and the 16-bit Thumb halfword
(00_scope.md R10 XLEN, R11). -/

namespace Sys2Proof

/-- A 32-bit value or address (00_scope.md R11). -/
abbrev Word := BitVec 32

/-- One byte of memory (20_memory.md R66). -/
abbrev Byte := BitVec 8

/-- A Thumb instruction halfword (30_encoding.md R85). -/
abbrev Half := BitVec 16

end Sys2Proof
end

