-- ==== Sys2Proof/Syntax.lean ====
section
/-! DEFINITION. The syntax of the instructions: one constructor of `Instr` per row of the opcode table
(30_encoding.md R88, R93), with the operand names of the spec, and the class tags of R98. -/

namespace Sys2Proof

/-- The two cores (00_scope.md R2): FAST is ARMv5TE, SLOW is ARMv4T. -/
inductive CoreId where
  | fast | slow
  deriving DecidableEq, Repr, Inhabited

/-- The condition field (30_encoding.md R87); `nv` is the reserved encoding 1111. -/
inductive Cond where
  | eq | ne | cs | cc | mi | pl | vs | vc | hi | ls | ge | lt | gt | le | al | nv
  deriving DecidableEq, Repr, Inhabited

/-- A 4-bit register number, `r0` to `r15` (00_scope.md R12). -/
inductive Reg where
  | r0 | r1 | r2 | r3 | r4 | r5 | r6 | r7 | r8 | r9 | r10 | r11 | r12 | r13 | r14 | r15
  deriving DecidableEq, Repr, Inhabited

/-- A 3-bit Thumb register number, `r0` to `r7` (45_thumb.md R265). -/
inductive LoReg where
  | r0 | r1 | r2 | r3 | r4 | r5 | r6 | r7
  deriving DecidableEq, Repr, Inhabited

/-- The shift type field (30_encoding.md R90). -/
inductive ShiftType where
  | lsl | lsr | asr | ror
  deriving DecidableEq, Repr, Inhabited

/-- The addressing mode of a single transfer (43_arm_loadstore.md R216): `offset` is P = 1, W = 0;
`pre` is P = 1, W = 1; `post` is P = 0, W = 0.  P = 0 with W = 1 names the T forms of R222 to R225 or an
unpredictable form (R226). -/
inductive IndexMode where
  | offset | pre | post
  deriving DecidableEq, Repr, Inhabited

/-- The offset of a halfword transfer (43_arm_loadstore.md R226): an 8-bit immediate (I = 1) or a register. -/
inductive HdtOffset where
  | imm (v : BitVec 8)
  | reg (rm : Reg)
  deriving DecidableEq, Repr, Inhabited

/-- The addressing mode of a block transfer (43_arm_loadstore.md R238). -/
inductive BlockMode where
  | ia | ib | da | db
  deriving DecidableEq, Repr, Inhabited

/-- The slot tags (10_state.md R33): the two pipeline tags, UNRECOGNIZED and the 38 class tags of
30_encoding.md R98. -/
inductive Tag where
  | FILLING | RAW | UNRECOGNIZED
  | A_DP | A_MRS | A_MSR | A_MUL | A_MULL | A_SWP | A_BX | A_BLXR | A_CLZ | A_QARITH | A_DSPMUL | A_HDT | A_SDT
  | A_BDT | A_B | A_BLXI | A_PLD | A_CP | A_SWI
  | T1_SHIFT | T2_ADDSUB | T3_IMM | T4_ALU | T5_HIREG | T6_LDRPC | T7_LSREG | T8_LSHREG | T9_LSIMM | T10_LSHIMM
  | T11_LSSP | T12_ADDR | T13_ADDSP | T14_PUSHPOP | T15_LSM | T16_BCOND | T17_SWI | T18_B | T19_BL
  deriving DecidableEq, Repr, Inhabited

/-- The instructions: one constructor per row of the opcode table. A field the spec ignores (30_encoding.md
R105) is no operand.  ARM constructors come first, Thumb constructors begin with `t`. -/
inductive Instr where
  /-- AND, immediate-shift operand (R175). -/
  | andShiftImm (c : Cond) (s : Bool) (rn rd : Reg) (amount : BitVec 5) (ty : ShiftType) (rm : Reg)
  /-- AND, register-shift operand (R175). -/
  | andShiftReg (c : Cond) (s : Bool) (rn rd rs : Reg) (ty : ShiftType) (rm : Reg)
  /-- AND, immediate operand (R175). -/
  | andImm (c : Cond) (s : Bool) (rn rd : Reg) (rot : BitVec 4) (imm8 : BitVec 8)
  /-- EOR, immediate-shift operand (R176). -/
  | eorShiftImm (c : Cond) (s : Bool) (rn rd : Reg) (amount : BitVec 5) (ty : ShiftType) (rm : Reg)
  /-- EOR, register-shift operand (R176). -/
  | eorShiftReg (c : Cond) (s : Bool) (rn rd rs : Reg) (ty : ShiftType) (rm : Reg)
  /-- EOR, immediate operand (R176). -/
  | eorImm (c : Cond) (s : Bool) (rn rd : Reg) (rot : BitVec 4) (imm8 : BitVec 8)
  /-- SUB, immediate-shift operand (R177). -/
  | subShiftImm (c : Cond) (s : Bool) (rn rd : Reg) (amount : BitVec 5) (ty : ShiftType) (rm : Reg)
  /-- SUB, register-shift operand (R177). -/
  | subShiftReg (c : Cond) (s : Bool) (rn rd rs : Reg) (ty : ShiftType) (rm : Reg)
  /-- SUB, immediate operand (R177). -/
  | subImm (c : Cond) (s : Bool) (rn rd : Reg) (rot : BitVec 4) (imm8 : BitVec 8)
  /-- RSB, immediate-shift operand (R178). -/
  | rsbShiftImm (c : Cond) (s : Bool) (rn rd : Reg) (amount : BitVec 5) (ty : ShiftType) (rm : Reg)
  /-- RSB, register-shift operand (R178). -/
  | rsbShiftReg (c : Cond) (s : Bool) (rn rd rs : Reg) (ty : ShiftType) (rm : Reg)
  /-- RSB, immediate operand (R178). -/
  | rsbImm (c : Cond) (s : Bool) (rn rd : Reg) (rot : BitVec 4) (imm8 : BitVec 8)
  /-- ADD, immediate-shift operand (R179). -/
  | addShiftImm (c : Cond) (s : Bool) (rn rd : Reg) (amount : BitVec 5) (ty : ShiftType) (rm : Reg)
  /-- ADD, register-shift operand (R179). -/
  | addShiftReg (c : Cond) (s : Bool) (rn rd rs : Reg) (ty : ShiftType) (rm : Reg)
  /-- ADD, immediate operand (R179). -/
  | addImm (c : Cond) (s : Bool) (rn rd : Reg) (rot : BitVec 4) (imm8 : BitVec 8)
  /-- ADC, immediate-shift operand (R180). -/
  | adcShiftImm (c : Cond) (s : Bool) (rn rd : Reg) (amount : BitVec 5) (ty : ShiftType) (rm : Reg)
  /-- ADC, register-shift operand (R180). -/
  | adcShiftReg (c : Cond) (s : Bool) (rn rd rs : Reg) (ty : ShiftType) (rm : Reg)
  /-- ADC, immediate operand (R180). -/
  | adcImm (c : Cond) (s : Bool) (rn rd : Reg) (rot : BitVec 4) (imm8 : BitVec 8)
  /-- SBC, immediate-shift operand (R181). -/
  | sbcShiftImm (c : Cond) (s : Bool) (rn rd : Reg) (amount : BitVec 5) (ty : ShiftType) (rm : Reg)
  /-- SBC, register-shift operand (R181). -/
  | sbcShiftReg (c : Cond) (s : Bool) (rn rd rs : Reg) (ty : ShiftType) (rm : Reg)
  /-- SBC, immediate operand (R181). -/
  | sbcImm (c : Cond) (s : Bool) (rn rd : Reg) (rot : BitVec 4) (imm8 : BitVec 8)
  /-- RSC, immediate-shift operand (R182). -/
  | rscShiftImm (c : Cond) (s : Bool) (rn rd : Reg) (amount : BitVec 5) (ty : ShiftType) (rm : Reg)
  /-- RSC, register-shift operand (R182). -/
  | rscShiftReg (c : Cond) (s : Bool) (rn rd rs : Reg) (ty : ShiftType) (rm : Reg)
  /-- RSC, immediate operand (R182). -/
  | rscImm (c : Cond) (s : Bool) (rn rd : Reg) (rot : BitVec 4) (imm8 : BitVec 8)
  /-- TST, immediate-shift operand (R183). -/
  | tstShiftImm (c : Cond) (rn : Reg) (amount : BitVec 5) (ty : ShiftType) (rm : Reg)
  /-- TST, register-shift operand (R183). -/
  | tstShiftReg (c : Cond) (rn rs : Reg) (ty : ShiftType) (rm : Reg)
  /-- TST, immediate operand (R183). -/
  | tstImm (c : Cond) (rn : Reg) (rot : BitVec 4) (imm8 : BitVec 8)
  /-- TEQ, immediate-shift operand (R184). -/
  | teqShiftImm (c : Cond) (rn : Reg) (amount : BitVec 5) (ty : ShiftType) (rm : Reg)
  /-- TEQ, register-shift operand (R184). -/
  | teqShiftReg (c : Cond) (rn rs : Reg) (ty : ShiftType) (rm : Reg)
  /-- TEQ, immediate operand (R184). -/
  | teqImm (c : Cond) (rn : Reg) (rot : BitVec 4) (imm8 : BitVec 8)
  /-- CMP, immediate-shift operand (R185). -/
  | cmpShiftImm (c : Cond) (rn : Reg) (amount : BitVec 5) (ty : ShiftType) (rm : Reg)
  /-- CMP, register-shift operand (R185). -/
  | cmpShiftReg (c : Cond) (rn rs : Reg) (ty : ShiftType) (rm : Reg)
  /-- CMP, immediate operand (R185). -/
  | cmpImm (c : Cond) (rn : Reg) (rot : BitVec 4) (imm8 : BitVec 8)
  /-- CMN, immediate-shift operand (R186). -/
  | cmnShiftImm (c : Cond) (rn : Reg) (amount : BitVec 5) (ty : ShiftType) (rm : Reg)
  /-- CMN, register-shift operand (R186). -/
  | cmnShiftReg (c : Cond) (rn rs : Reg) (ty : ShiftType) (rm : Reg)
  /-- CMN, immediate operand (R186). -/
  | cmnImm (c : Cond) (rn : Reg) (rot : BitVec 4) (imm8 : BitVec 8)
  /-- ORR, immediate-shift operand (R187). -/
  | orrShiftImm (c : Cond) (s : Bool) (rn rd : Reg) (amount : BitVec 5) (ty : ShiftType) (rm : Reg)
  /-- ORR, register-shift operand (R187). -/
  | orrShiftReg (c : Cond) (s : Bool) (rn rd rs : Reg) (ty : ShiftType) (rm : Reg)
  /-- ORR, immediate operand (R187). -/
  | orrImm (c : Cond) (s : Bool) (rn rd : Reg) (rot : BitVec 4) (imm8 : BitVec 8)
  /-- MOV, immediate-shift operand (R188). -/
  | movShiftImm (c : Cond) (s : Bool) (rd : Reg) (amount : BitVec 5) (ty : ShiftType) (rm : Reg)
  /-- MOV, register-shift operand (R188). -/
  | movShiftReg (c : Cond) (s : Bool) (rd rs : Reg) (ty : ShiftType) (rm : Reg)
  /-- MOV, immediate operand (R188). -/
  | movImm (c : Cond) (s : Bool) (rd : Reg) (rot : BitVec 4) (imm8 : BitVec 8)
  /-- BIC, immediate-shift operand (R189). -/
  | bicShiftImm (c : Cond) (s : Bool) (rn rd : Reg) (amount : BitVec 5) (ty : ShiftType) (rm : Reg)
  /-- BIC, register-shift operand (R189). -/
  | bicShiftReg (c : Cond) (s : Bool) (rn rd rs : Reg) (ty : ShiftType) (rm : Reg)
  /-- BIC, immediate operand (R189). -/
  | bicImm (c : Cond) (s : Bool) (rn rd : Reg) (rot : BitVec 4) (imm8 : BitVec 8)
  /-- MVN, immediate-shift operand (R190). -/
  | mvnShiftImm (c : Cond) (s : Bool) (rd : Reg) (amount : BitVec 5) (ty : ShiftType) (rm : Reg)
  /-- MVN, register-shift operand (R190). -/
  | mvnShiftReg (c : Cond) (s : Bool) (rd rs : Reg) (ty : ShiftType) (rm : Reg)
  /-- MVN, immediate operand (R190). -/
  | mvnImm (c : Cond) (s : Bool) (rd : Reg) (rot : BitVec 4) (imm8 : BitVec 8)
  /-- MRS (R191). -/
  | mrs (c : Cond) (spsr : Bool) (rd : Reg)
  /-- MSR, register operand (R192). -/
  | msrReg (c : Cond) (spsr : Bool) (fields : BitVec 4) (rm : Reg)
  /-- MSR, immediate operand (R192). -/
  | msrImm (c : Cond) (spsr : Bool) (fields rot : BitVec 4) (imm8 : BitVec 8)
  /-- MUL (R193). -/
  | mul (c : Cond) (s : Bool) (rd rs rm : Reg)
  /-- MLA (R194). -/
  | mla (c : Cond) (s : Bool) (rd rn rs rm : Reg)
  /-- UMULL (R195). -/
  | umull (c : Cond) (s : Bool) (rdHi rdLo rs rm : Reg)
  /-- UMLAL (R196). -/
  | umlal (c : Cond) (s : Bool) (rdHi rdLo rs rm : Reg)
  /-- SMULL (R197). -/
  | smull (c : Cond) (s : Bool) (rdHi rdLo rs rm : Reg)
  /-- SMLAL (R198). -/
  | smlal (c : Cond) (s : Bool) (rdHi rdLo rs rm : Reg)
  /-- CLZ, FAST only (R200). -/
  | clz (c : Cond) (rd rm : Reg)
  /-- QADD, FAST only (R201). -/
  | qadd (c : Cond) (rn rd rm : Reg)
  /-- QSUB, FAST only (R202). -/
  | qsub (c : Cond) (rn rd rm : Reg)
  /-- QDADD, FAST only (R203). -/
  | qdadd (c : Cond) (rn rd rm : Reg)
  /-- QDSUB, FAST only (R204). -/
  | qdsub (c : Cond) (rn rd rm : Reg)
  /-- SMLA<x><y>, FAST only (R205); x, y = true select the top halfword. -/
  | smlaXY (c : Cond) (x y : Bool) (rd rn rs rm : Reg)
  /-- SMLAW<y>, FAST only (R206). -/
  | smlawY (c : Cond) (y : Bool) (rd rn rs rm : Reg)
  /-- SMULW<y>, FAST only (R207). -/
  | smulwY (c : Cond) (y : Bool) (rd rs rm : Reg)
  /-- SMLAL<x><y>, FAST only (R208). -/
  | smlalXY (c : Cond) (x y : Bool) (rdHi rdLo rs rm : Reg)
  /-- SMUL<x><y>, FAST only (R209). -/
  | smulXY (c : Cond) (x y : Bool) (rd rs rm : Reg)
  /-- LDR, immediate offset (R218). -/
  | ldrImm (c : Cond) (mode : IndexMode) (up : Bool) (rn rd : Reg) (imm12 : BitVec 12)
  /-- LDR, shifted register offset (R218). -/
  | ldrReg (c : Cond) (mode : IndexMode) (up : Bool) (rn rd : Reg) (amount : BitVec 5) (ty : ShiftType) (rm : Reg)
  /-- STR, immediate offset (R219). -/
  | strImm (c : Cond) (mode : IndexMode) (up : Bool) (rn rd : Reg) (imm12 : BitVec 12)
  /-- STR, shifted register offset (R219). -/
  | strReg (c : Cond) (mode : IndexMode) (up : Bool) (rn rd : Reg) (amount : BitVec 5) (ty : ShiftType) (rm : Reg)
  /-- LDRB, immediate offset (R220). -/
  | ldrbImm (c : Cond) (mode : IndexMode) (up : Bool) (rn rd : Reg) (imm12 : BitVec 12)
  /-- LDRB, shifted register offset (R220). -/
  | ldrbReg (c : Cond) (mode : IndexMode) (up : Bool) (rn rd : Reg) (amount : BitVec 5) (ty : ShiftType) (rm : Reg)
  /-- STRB, immediate offset (R221). -/
  | strbImm (c : Cond) (mode : IndexMode) (up : Bool) (rn rd : Reg) (imm12 : BitVec 12)
  /-- STRB, shifted register offset (R221). -/
  | strbReg (c : Cond) (mode : IndexMode) (up : Bool) (rn rd : Reg) (amount : BitVec 5) (ty : ShiftType) (rm : Reg)
  /-- LDRT, immediate offset, always post-indexed (R222). -/
  | ldrtImm (c : Cond) (up : Bool) (rn rd : Reg) (imm12 : BitVec 12)
  /-- LDRT, shifted register offset, always post-indexed (R222). -/
  | ldrtReg (c : Cond) (up : Bool) (rn rd : Reg) (amount : BitVec 5) (ty : ShiftType) (rm : Reg)
  /-- STRT, immediate offset, always post-indexed (R223). -/
  | strtImm (c : Cond) (up : Bool) (rn rd : Reg) (imm12 : BitVec 12)
  /-- STRT, shifted register offset, always post-indexed (R223). -/
  | strtReg (c : Cond) (up : Bool) (rn rd : Reg) (amount : BitVec 5) (ty : ShiftType) (rm : Reg)
  /-- LDRBT, immediate offset, always post-indexed (R224). -/
  | ldrbtImm (c : Cond) (up : Bool) (rn rd : Reg) (imm12 : BitVec 12)
  /-- LDRBT, shifted register offset, always post-indexed (R224). -/
  | ldrbtReg (c : Cond) (up : Bool) (rn rd : Reg) (amount : BitVec 5) (ty : ShiftType) (rm : Reg)
  /-- STRBT, immediate offset, always post-indexed (R225). -/
  | strbtImm (c : Cond) (up : Bool) (rn rd : Reg) (imm12 : BitVec 12)
  /-- STRBT, shifted register offset, always post-indexed (R225). -/
  | strbtReg (c : Cond) (up : Bool) (rn rd : Reg) (amount : BitVec 5) (ty : ShiftType) (rm : Reg)
  /-- LDRH (R227). -/
  | ldrh (c : Cond) (mode : IndexMode) (up : Bool) (rn rd : Reg) (off : HdtOffset)
  /-- STRH (R228). -/
  | strh (c : Cond) (mode : IndexMode) (up : Bool) (rn rd : Reg) (off : HdtOffset)
  /-- LDRSB (R229). -/
  | ldrsb (c : Cond) (mode : IndexMode) (up : Bool) (rn rd : Reg) (off : HdtOffset)
  /-- LDRSH (R230). -/
  | ldrsh (c : Cond) (mode : IndexMode) (up : Bool) (rn rd : Reg) (off : HdtOffset)
  /-- LDRD (R231). FAST only. -/
  | ldrd (c : Cond) (mode : IndexMode) (up : Bool) (rn rd : Reg) (off : HdtOffset)
  /-- STRD (R232). FAST only. -/
  | strd (c : Cond) (mode : IndexMode) (up : Bool) (rn rd : Reg) (off : HdtOffset)
  /-- LDM (R239); s is the caret suffix, w the write-back. -/
  | ldm (c : Cond) (bm : BlockMode) (s w : Bool) (rn : Reg) (list : BitVec 16)
  /-- STM (R240); s is the caret suffix, w the write-back. -/
  | stm (c : Cond) (bm : BlockMode) (s w : Bool) (rn : Reg) (list : BitVec 16)
  /-- SWP (R241). -/
  | swp (c : Cond) (rn rd rm : Reg)
  /-- SWPB (R242). -/
  | swpb (c : Cond) (rn rd rm : Reg)
  /-- PLD, FAST only, unconditional (R243); its fields are not read. -/
  | pld (regOff up : Bool) (rn : Reg) (off : BitVec 12)
  /-- B (R245). -/
  | b (c : Cond) (off : BitVec 24)
  /-- BL (R246). -/
  | bl (c : Cond) (off : BitVec 24)
  /-- BX (R247). -/
  | bx (c : Cond) (rm : Reg)
  /-- BLX immediate, FAST only, unconditional (R248). -/
  | blxImm (h : Bool) (off : BitVec 24)
  /-- BLX register, FAST only (R249). -/
  | blxReg (c : Cond) (rm : Reg)
  /-- SWI (R250). -/
  | swi (c : Cond) (comment : BitVec 24)
  /-- BKPT, tagged UNRECOGNIZED on both cores (R251). -/
  | bkpt (imm16 : BitVec 16)
  /-- MCR to coprocessor 15, FAST only (R254). -/
  | mcr (c : Cond) (op1 : BitVec 3) (crn : BitVec 4) (rd : Reg) (op2 : BitVec 3) (crm : BitVec 4)
  /-- MRC to coprocessor 15, FAST only (R255). -/
  | mrc (c : Cond) (op1 : BitVec 3) (crn : BitVec 4) (rd : Reg) (op2 : BitVec 3) (crm : BitVec 4)
  /-- Thumb LSL by an immediate (R266). -/
  | tLslImm (imm5 : BitVec 5) (rs rd : LoReg)
  /-- Thumb LSR by an immediate (R267). -/
  | tLsrImm (imm5 : BitVec 5) (rs rd : LoReg)
  /-- Thumb ASR by an immediate (R268). -/
  | tAsrImm (imm5 : BitVec 5) (rs rd : LoReg)
  /-- Thumb ADD Rd, Rs, Rn (R269). -/
  | tAddReg (rn rs rd : LoReg)
  /-- Thumb SUB Rd, Rs, Rn (R270). -/
  | tSubReg (rn rs rd : LoReg)
  /-- Thumb ADD Rd, Rs, #imm3 (R271). -/
  | tAddImm3 (imm3 : BitVec 3) (rs rd : LoReg)
  /-- Thumb SUB Rd, Rs, #imm3 (R272). -/
  | tSubImm3 (imm3 : BitVec 3) (rs rd : LoReg)
  /-- Thumb MOV Rd, #imm8 (R273). -/
  | tMovImm8 (rd : LoReg) (imm8 : BitVec 8)
  /-- Thumb CMP Rd, #imm8 (R274). -/
  | tCmpImm8 (rd : LoReg) (imm8 : BitVec 8)
  /-- Thumb ADD Rd, #imm8 (R275). -/
  | tAddImm8 (rd : LoReg) (imm8 : BitVec 8)
  /-- Thumb SUB Rd, #imm8 (R276). -/
  | tSubImm8 (rd : LoReg) (imm8 : BitVec 8)
  /-- Thumb AND Rd, Rs (R277). -/
  | tAndAlu (rs rd : LoReg)
  /-- Thumb EOR Rd, Rs (R278). -/
  | tEorAlu (rs rd : LoReg)
  /-- Thumb LSL Rd, Rs (R279). -/
  | tLslAlu (rs rd : LoReg)
  /-- Thumb LSR Rd, Rs (R280). -/
  | tLsrAlu (rs rd : LoReg)
  /-- Thumb ASR Rd, Rs (R281). -/
  | tAsrAlu (rs rd : LoReg)
  /-- Thumb ADC Rd, Rs (R282). -/
  | tAdcAlu (rs rd : LoReg)
  /-- Thumb SBC Rd, Rs (R283). -/
  | tSbcAlu (rs rd : LoReg)
  /-- Thumb ROR Rd, Rs (R284). -/
  | tRorAlu (rs rd : LoReg)
  /-- Thumb TST Rd, Rs (R285). -/
  | tTstAlu (rs rd : LoReg)
  /-- Thumb NEG Rd, Rs (R286). -/
  | tNegAlu (rs rd : LoReg)
  /-- Thumb CMP Rd, Rs (R287). -/
  | tCmpAlu (rs rd : LoReg)
  /-- Thumb CMN Rd, Rs (R288). -/
  | tCmnAlu (rs rd : LoReg)
  /-- Thumb ORR Rd, Rs (R289). -/
  | tOrrAlu (rs rd : LoReg)
  /-- Thumb MUL Rd, Rs (R290). -/
  | tMulAlu (rs rd : LoReg)
  /-- Thumb BIC Rd, Rs (R291). -/
  | tBicAlu (rs rd : LoReg)
  /-- Thumb MVN Rd, Rs (R292). -/
  | tMvnAlu (rs rd : LoReg)
  /-- Thumb ADD Rd, Rm with high registers (R293). -/
  | tAddHi (rd rm : Reg)
  /-- Thumb CMP Rd, Rm with high registers (R294). -/
  | tCmpHi (rd rm : Reg)
  /-- Thumb MOV Rd, Rm with high registers (R295). -/
  | tMovHi (rd rm : Reg)
  /-- Thumb BX (R296). -/
  | tBx (rm : Reg)
  /-- Thumb BLX Rm, FAST only (R297). -/
  | tBlxReg (rm : Reg)
  /-- Thumb LDR Rd, [PC, #imm8*4] (R298). -/
  | tLdrPc (rd : LoReg) (imm8 : BitVec 8)
  /-- Thumb STR Rd, [Rb, Ro] (R299). -/
  | tStrReg (ro rb rd : LoReg)
  /-- Thumb STRB Rd, [Rb, Ro] (R300). -/
  | tStrbReg (ro rb rd : LoReg)
  /-- Thumb LDR Rd, [Rb, Ro] (R301). -/
  | tLdrReg (ro rb rd : LoReg)
  /-- Thumb LDRB Rd, [Rb, Ro] (R302). -/
  | tLdrbReg (ro rb rd : LoReg)
  /-- Thumb STRH Rd, [Rb, Ro] (R303). -/
  | tStrhReg (ro rb rd : LoReg)
  /-- Thumb LDRSB Rd, [Rb, Ro] (R304). -/
  | tLdrsbReg (ro rb rd : LoReg)
  /-- Thumb LDRH Rd, [Rb, Ro] (R305). -/
  | tLdrhReg (ro rb rd : LoReg)
  /-- Thumb LDRSH Rd, [Rb, Ro] (R306). -/
  | tLdrshReg (ro rb rd : LoReg)
  /-- Thumb STR Rd, [Rb, #imm5] (R307). -/
  | tStrImm (imm5 : BitVec 5) (rb rd : LoReg)
  /-- Thumb LDR Rd, [Rb, #imm5] (R308). -/
  | tLdrImm (imm5 : BitVec 5) (rb rd : LoReg)
  /-- Thumb STRB Rd, [Rb, #imm5] (R309). -/
  | tStrbImm (imm5 : BitVec 5) (rb rd : LoReg)
  /-- Thumb LDRB Rd, [Rb, #imm5] (R310). -/
  | tLdrbImm (imm5 : BitVec 5) (rb rd : LoReg)
  /-- Thumb STRH Rd, [Rb, #imm5] (R311). -/
  | tStrhImm (imm5 : BitVec 5) (rb rd : LoReg)
  /-- Thumb LDRH Rd, [Rb, #imm5] (R312). -/
  | tLdrhImm (imm5 : BitVec 5) (rb rd : LoReg)
  /-- Thumb STR Rd, [SP, #imm8*4] (R313). -/
  | tStrSp (rd : LoReg) (imm8 : BitVec 8)
  /-- Thumb LDR Rd, [SP, #imm8*4] (R314). -/
  | tLdrSp (rd : LoReg) (imm8 : BitVec 8)
  /-- Thumb ADD Rd, PC, #imm8*4 (R315). -/
  | tAddPc (rd : LoReg) (imm8 : BitVec 8)
  /-- Thumb ADD Rd, SP, #imm8*4 (R316). -/
  | tAddSp (rd : LoReg) (imm8 : BitVec 8)
  /-- Thumb ADD SP, #imm7*4 (R317). -/
  | tIncSp (imm7 : BitVec 7)
  /-- Thumb SUB SP, #imm7*4 (R318). -/
  | tDecSp (imm7 : BitVec 7)
  /-- Thumb PUSH (R319); lr is the R bit. -/
  | tPush (lr : Bool) (list : BitVec 8)
  /-- Thumb POP (R320); pc is the R bit. -/
  | tPop (pc : Bool) (list : BitVec 8)
  /-- Thumb STMIA Rb!, list (R321). -/
  | tStmia (rb : LoReg) (list : BitVec 8)
  /-- Thumb LDMIA Rb!, list (R322). -/
  | tLdmia (rb : LoReg) (list : BitVec 8)
  /-- Thumb B<cond> (R323). -/
  | tBCond (c : Cond) (off : BitVec 8)
  /-- Thumb SWI (R324). -/
  | tSwi (n : BitVec 8)
  /-- Thumb B (R325). -/
  | tB (off : BitVec 11)
  /-- Thumb BL/BLX prefix (R343). -/
  | tBlPrefix (off : BitVec 11)
  /-- Thumb BL suffix (R344). -/
  | tBlSuffix (off : BitVec 11)
  /-- Thumb BLX suffix, FAST only, h[10:1] (R345). -/
  | tBlxSuffix (off : BitVec 10)
  deriving DecidableEq, Repr, Inhabited

end Sys2Proof
end

