-- ==== Sys2Proof/Machine/Registers.lean ====
section
/-! DEFINITION. The general registers of a core: the 31 physical registers (10_state.md R21), the seven modes
(R28), the map from a register number and a mode to a physical register (R22 to R25), and the 16-entry scratch
lists of a pipeline slot (R34). -/

namespace Sys2Proof.Machine

/-- The 31 physical registers (10_state.md R21). -/
inductive PhysReg where
  | r0 | r1 | r2 | r3 | r4 | r5 | r6 | r7 | r8 | r9 | r10 | r11 | r12
  | r8Fiq | r9Fiq | r10Fiq | r11Fiq | r12Fiq
  | r13Usr | r14Usr | r13Fiq | r14Fiq | r13Svc | r14Svc | r13Abt | r14Abt | r13Irq | r14Irq | r13Und | r14Und
  | r15
  deriving DecidableEq, Repr, Inhabited

/-- The seven modes (10_state.md R28). -/
inductive Mode where
  | usr | fiq | irq | svc | abt | und | sys
  deriving DecidableEq, Repr, Inhabited

/-- The value of the mode field M (10_state.md R28). -/
def Mode.bits : Mode → BitVec 5
  | .usr => 0x10#5
  | .fiq => 0x11#5
  | .irq => 0x12#5
  | .svc => 0x13#5
  | .abt => 0x17#5
  | .und => 0x1B#5
  | .sys => 0x1F#5

/-- The mode a field M names; `none` for the 25 values that name none (10_state.md R28, R29). -/
def Mode.ofBits? (m : BitVec 5) : Option Mode :=
  match m.toNat with
  | 0x10 => some .usr
  | 0x11 => some .fiq
  | 0x12 => some .irq
  | 0x13 => some .svc
  | 0x17 => some .abt
  | 0x1B => some .und
  | 0x1F => some .sys
  | _ => none

/-- The values of the 31 physical registers. -/
structure RegFile where
  r0 : Word := 0#32
  r1 : Word := 0#32
  r2 : Word := 0#32
  r3 : Word := 0#32
  r4 : Word := 0#32
  r5 : Word := 0#32
  r6 : Word := 0#32
  r7 : Word := 0#32
  r8 : Word := 0#32
  r9 : Word := 0#32
  r10 : Word := 0#32
  r11 : Word := 0#32
  r12 : Word := 0#32
  r8Fiq : Word := 0#32
  r9Fiq : Word := 0#32
  r10Fiq : Word := 0#32
  r11Fiq : Word := 0#32
  r12Fiq : Word := 0#32
  r13Usr : Word := 0#32
  r14Usr : Word := 0#32
  r13Fiq : Word := 0#32
  r14Fiq : Word := 0#32
  r13Svc : Word := 0#32
  r14Svc : Word := 0#32
  r13Abt : Word := 0#32
  r14Abt : Word := 0#32
  r13Irq : Word := 0#32
  r14Irq : Word := 0#32
  r13Und : Word := 0#32
  r14Und : Word := 0#32
  r15 : Word := 0#32
  deriving DecidableEq, Repr, Inhabited

/-- Reading one physical register. -/
def RegFile.get (f : RegFile) : PhysReg → Word
  | .r0 => f.r0
  | .r1 => f.r1
  | .r2 => f.r2
  | .r3 => f.r3
  | .r4 => f.r4
  | .r5 => f.r5
  | .r6 => f.r6
  | .r7 => f.r7
  | .r8 => f.r8
  | .r9 => f.r9
  | .r10 => f.r10
  | .r11 => f.r11
  | .r12 => f.r12
  | .r8Fiq => f.r8Fiq
  | .r9Fiq => f.r9Fiq
  | .r10Fiq => f.r10Fiq
  | .r11Fiq => f.r11Fiq
  | .r12Fiq => f.r12Fiq
  | .r13Usr => f.r13Usr
  | .r14Usr => f.r14Usr
  | .r13Fiq => f.r13Fiq
  | .r14Fiq => f.r14Fiq
  | .r13Svc => f.r13Svc
  | .r14Svc => f.r14Svc
  | .r13Abt => f.r13Abt
  | .r14Abt => f.r14Abt
  | .r13Irq => f.r13Irq
  | .r14Irq => f.r14Irq
  | .r13Und => f.r13Und
  | .r14Und => f.r14Und
  | .r15 => f.r15

/-- Writing one physical register. -/
def RegFile.set (f : RegFile) (p : PhysReg) (v : Word) : RegFile :=
  match p with
  | .r0 => { f with r0 := v }
  | .r1 => { f with r1 := v }
  | .r2 => { f with r2 := v }
  | .r3 => { f with r3 := v }
  | .r4 => { f with r4 := v }
  | .r5 => { f with r5 := v }
  | .r6 => { f with r6 := v }
  | .r7 => { f with r7 := v }
  | .r8 => { f with r8 := v }
  | .r9 => { f with r9 := v }
  | .r10 => { f with r10 := v }
  | .r11 => { f with r11 := v }
  | .r12 => { f with r12 := v }
  | .r8Fiq => { f with r8Fiq := v }
  | .r9Fiq => { f with r9Fiq := v }
  | .r10Fiq => { f with r10Fiq := v }
  | .r11Fiq => { f with r11Fiq := v }
  | .r12Fiq => { f with r12Fiq := v }
  | .r13Usr => { f with r13Usr := v }
  | .r14Usr => { f with r14Usr := v }
  | .r13Fiq => { f with r13Fiq := v }
  | .r14Fiq => { f with r14Fiq := v }
  | .r13Svc => { f with r13Svc := v }
  | .r14Svc => { f with r14Svc := v }
  | .r13Abt => { f with r13Abt := v }
  | .r14Abt => { f with r14Abt := v }
  | .r13Irq => { f with r13Irq := v }
  | .r14Irq => { f with r14Irq := v }
  | .r13Und => { f with r13Und := v }
  | .r14Und => { f with r14Und := v }
  | .r15 => { f with r15 := v }

/-- `phys(i, m)` of 10_state.md R24: the physical register that number `i` names in mode `m`. -/
def phys (i : Reg) (m : Mode) : PhysReg :=
  match i with
  | .r0 => .r0
  | .r1 => .r1
  | .r2 => .r2
  | .r3 => .r3
  | .r4 => .r4
  | .r5 => .r5
  | .r6 => .r6
  | .r7 => .r7
  | .r8 => if m = .fiq then .r8Fiq else .r8
  | .r9 => if m = .fiq then .r9Fiq else .r9
  | .r10 => if m = .fiq then .r10Fiq else .r10
  | .r11 => if m = .fiq then .r11Fiq else .r11
  | .r12 => if m = .fiq then .r12Fiq else .r12
  | .r13 =>
    match m with
    | .usr => .r13Usr
    | .sys => .r13Usr
    | .fiq => .r13Fiq
    | .svc => .r13Svc
    | .abt => .r13Abt
    | .irq => .r13Irq
    | .und => .r13Und
  | .r14 =>
    match m with
    | .usr => .r14Usr
    | .sys => .r14Usr
    | .fiq => .r14Fiq
    | .svc => .r14Svc
    | .abt => .r14Abt
    | .irq => .r14Irq
    | .und => .r14Und
  | .r15 => .r15

/-- A list with one entry per register number: the scratch lists of a slot (10_state.md R34). -/
structure RegMap (α : Type) where
  e0 : α
  e1 : α
  e2 : α
  e3 : α
  e4 : α
  e5 : α
  e6 : α
  e7 : α
  e8 : α
  e9 : α
  e10 : α
  e11 : α
  e12 : α
  e13 : α
  e14 : α
  e15 : α
  deriving DecidableEq, Repr

/-- The entry of register `i`. -/
def RegMap.get {α : Type} (f : RegMap α) : Reg → α
  | .r0 => f.e0
  | .r1 => f.e1
  | .r2 => f.e2
  | .r3 => f.e3
  | .r4 => f.e4
  | .r5 => f.e5
  | .r6 => f.e6
  | .r7 => f.e7
  | .r8 => f.e8
  | .r9 => f.e9
  | .r10 => f.e10
  | .r11 => f.e11
  | .r12 => f.e12
  | .r13 => f.e13
  | .r14 => f.e14
  | .r15 => f.e15

/-- Setting the entry of register `i`. -/
def RegMap.set {α : Type} (f : RegMap α) (i : Reg) (v : α) : RegMap α :=
  match i with
  | .r0 => { f with e0 := v }
  | .r1 => { f with e1 := v }
  | .r2 => { f with e2 := v }
  | .r3 => { f with e3 := v }
  | .r4 => { f with e4 := v }
  | .r5 => { f with e5 := v }
  | .r6 => { f with e6 := v }
  | .r7 => { f with e7 := v }
  | .r8 => { f with e8 := v }
  | .r9 => { f with e9 := v }
  | .r10 => { f with e10 := v }
  | .r11 => { f with e11 := v }
  | .r12 => { f with e12 := v }
  | .r13 => { f with e13 := v }
  | .r14 => { f with e14 := v }
  | .r15 => { f with e15 := v }

/-- The list with the same entry everywhere. -/
def RegMap.const {α : Type} (v : α) : RegMap α :=
  ⟨v, v, v, v, v, v, v, v, v, v, v, v, v, v, v, v⟩

/-- The list whose entry of register `i` is `g i`. -/
def RegMap.ofFn {α : Type} (g : Reg → α) : RegMap α :=
  ⟨g .r0, g .r1, g .r2, g .r3, g .r4, g .r5, g .r6, g .r7, g .r8, g .r9, g .r10, g .r11, g .r12, g .r13, g .r14, g .r15⟩

/-- The number of a register. -/
def regNumber : Reg → Nat
  | .r0 => 0
  | .r1 => 1
  | .r2 => 2
  | .r3 => 3
  | .r4 => 4
  | .r5 => 5
  | .r6 => 6
  | .r7 => 7
  | .r8 => 8
  | .r9 => 9
  | .r10 => 10
  | .r11 => 11
  | .r12 => 12
  | .r13 => 13
  | .r14 => 14
  | .r15 => 15

/-- The sixteen registers in increasing number: the order of block transfers and of `write_reg`
(43_arm_loadstore.md R238, 41_pipeline.md R155). -/
def allRegs : List Reg :=
  [.r0, .r1, .r2, .r3, .r4, .r5, .r6, .r7, .r8, .r9, .r10, .r11, .r12, .r13, .r14, .r15]

/-- A low register as a register number (45_thumb.md R265). -/
def loReg : LoReg → Reg
  | .r0 => .r0
  | .r1 => .r1
  | .r2 => .r2
  | .r3 => .r3
  | .r4 => .r4
  | .r5 => .r5
  | .r6 => .r6
  | .r7 => .r7

end Sys2Proof.Machine
end

