-- ==== Sys2Proof/Decode.lean ====
section
/-! DEFINITION. The decoder and the encoder (30_encoding.md R85 to R105).  A word is read by its fields, which are
nibbles except the opcode byte; the tests of R95 and R97 stand in their order, written on those fields.  Decode
is total: a word that names no instruction is rejected by name. -/

namespace Sys2Proof

/-! ## Field values -/

/-- The number of a register. -/
def Reg.toBits : Reg → BitVec 4
  | .r0 => 0#4
  | .r1 => 1#4
  | .r2 => 2#4
  | .r3 => 3#4
  | .r4 => 4#4
  | .r5 => 5#4
  | .r6 => 6#4
  | .r7 => 7#4
  | .r8 => 8#4
  | .r9 => 9#4
  | .r10 => 10#4
  | .r11 => 11#4
  | .r12 => 12#4
  | .r13 => 13#4
  | .r14 => 14#4
  | .r15 => 15#4

/-- The register of a number. -/
def Reg.ofBits (b : BitVec 4) : Reg :=
  match b.toNat with
  | 0 => .r0
  | 1 => .r1
  | 2 => .r2
  | 3 => .r3
  | 4 => .r4
  | 5 => .r5
  | 6 => .r6
  | 7 => .r7
  | 8 => .r8
  | 9 => .r9
  | 10 => .r10
  | 11 => .r11
  | 12 => .r12
  | 13 => .r13
  | 14 => .r14
  | _ => .r15

/-- The number of a low register. -/
def LoReg.toBits : LoReg → BitVec 3
  | .r0 => 0#3
  | .r1 => 1#3
  | .r2 => 2#3
  | .r3 => 3#3
  | .r4 => 4#3
  | .r5 => 5#3
  | .r6 => 6#3
  | .r7 => 7#3

/-- The low register of a number. -/
def LoReg.ofBits (b : BitVec 3) : LoReg :=
  match b.toNat with
  | 0 => .r0
  | 1 => .r1
  | 2 => .r2
  | 3 => .r3
  | 4 => .r4
  | 5 => .r5
  | 6 => .r6
  | _ => .r7

/-- The condition encodings (30_encoding.md R87). -/
def Cond.toBits : Cond → BitVec 4
  | .eq => 0#4
  | .ne => 1#4
  | .cs => 2#4
  | .cc => 3#4
  | .mi => 4#4
  | .pl => 5#4
  | .vs => 6#4
  | .vc => 7#4
  | .hi => 8#4
  | .ls => 9#4
  | .ge => 10#4
  | .lt => 11#4
  | .gt => 12#4
  | .le => 13#4
  | .al => 14#4
  | .nv => 15#4

/-- The condition of an encoding (30_encoding.md R87). -/
def Cond.ofBits (b : BitVec 4) : Cond :=
  match b.toNat with
  | 0 => .eq
  | 1 => .ne
  | 2 => .cs
  | 3 => .cc
  | 4 => .mi
  | 5 => .pl
  | 6 => .vs
  | 7 => .vc
  | 8 => .hi
  | 9 => .ls
  | 10 => .ge
  | 11 => .lt
  | 12 => .gt
  | 13 => .le
  | 14 => .al
  | _ => .nv

/-- The shift type encodings (30_encoding.md R90). -/
def ShiftType.toBits : ShiftType → BitVec 2
  | .lsl => 0#2
  | .lsr => 1#2
  | .asr => 2#2
  | .ror => 3#2

/-- The shift type of an encoding (30_encoding.md R90). -/
def ShiftType.ofBits (b : BitVec 2) : ShiftType :=
  match b.toNat with
  | 0 => .lsl
  | 1 => .lsr
  | 2 => .asr
  | _ => .ror

/-- The bits P and U of a block transfer (43_arm_loadstore.md R238). -/
def BlockMode.toBits : BlockMode → Bool × Bool
  | .ia => (false, true)
  | .ib => (true, true)
  | .da => (false, false)
  | .db => (true, false)

/-- The block mode of the bits P and U (43_arm_loadstore.md R238). -/
def BlockMode.ofBits (p u : Bool) : BlockMode :=
  match p, u with
  | false, true => .ia
  | true, true => .ib
  | false, false => .da
  | true, false => .db

/-- The bits P and W of a single transfer (43_arm_loadstore.md R216). -/
def IndexMode.toBits : IndexMode → Bool × Bool
  | .offset => (true, false)
  | .pre => (true, true)
  | .post => (false, false)

/-- The mode of the bits P and W; P = 0 with W = 1 is read as post-indexed and told apart by the caller. -/
def IndexMode.ofBits (p w : Bool) : IndexMode :=
  match p, w with
  | true, false => .offset
  | true, true => .pre
  | false, _ => .post

/-- One bit. -/
abbrev bit (b : Bool) : BitVec 1 := BitVec.ofBool b

/-! ## The fields of a word -/

/-- The fields of an ARM word: bits 31:28, 27:20, 19:16, 15:12, 11:8, 7:4 and 3:0 (30_encoding.md R88). -/
structure ArmFields where
  c : BitVec 4
  hi : BitVec 8
  n : BitVec 4
  d : BitVec 4
  s : BitVec 4
  lo : BitVec 4
  m : BitVec 4
  deriving DecidableEq, Repr

/-- The fields of a word. -/
def ArmFields.ofWord (w : Word) : ArmFields where
  c := w.extractLsb' 28 4
  hi := w.extractLsb' 20 8
  n := w.extractLsb' 16 4
  d := w.extractLsb' 12 4
  s := w.extractLsb' 8 4
  lo := w.extractLsb' 4 4
  m := w.extractLsb' 0 4

/-- The word of its fields. -/
def ArmFields.toWord (f : ArmFields) : Word :=
  f.c ++ f.hi ++ f.n ++ f.d ++ f.s ++ f.lo ++ f.m

/-- The fields of a Thumb halfword: bits 15:11, 10:8, 7:6, 5:3 and 2:0 (30_encoding.md R93). -/
structure ThumbFields where
  t : BitVec 5
  u : BitVec 3
  v : BitVec 2
  s : BitVec 3
  d : BitVec 3
  deriving DecidableEq, Repr

/-- The fields of a halfword. -/
def ThumbFields.ofHalf (h : Half) : ThumbFields where
  t := h.extractLsb' 11 5
  u := h.extractLsb' 8 3
  v := h.extractLsb' 6 2
  s := h.extractLsb' 3 3
  d := h.extractLsb' 0 3

/-- The halfword of its fields. -/
def ThumbFields.toHalf (f : ThumbFields) : Half := f.t ++ f.u ++ f.v ++ f.s ++ f.d

/-! ## Classification -/

/-- `decode_arm(k, w)` (30_encoding.md R95): the first matching test, in the order of the rule.
On SLOW a word of the BLX immediate pattern falls through to A_B here; `blxImmOnSlow` then makes it UNRECOGNIZED. -/
def classifyArm (k : CoreId) (f : ArmFields) : Tag :=
  let fast := k = .fast
  let hi := f.hi
  if fast ∧ f.c = 0xF#4 ∧ hi.extractLsb' 5 3 = 0b101#3 then .A_BLXI
  else if fast ∧ f.c = 0xF#4 ∧ hi.extractLsb' 6 2 = 0b01#2 ∧ hi.getLsbD 4 = true ∧ hi.extractLsb' 0 3 = 0b101#3
      ∧ f.d = 0xF#4 then .A_PLD
  else if hi = 0x12#8 ∧ f.n = 0xF#4 ∧ f.d = 0xF#4 ∧ f.s = 0xF#4 ∧ f.lo = 0x1#4 then .A_BX
  else if hi = 0x12#8 ∧ f.n = 0xF#4 ∧ f.d = 0xF#4 ∧ f.s = 0xF#4 ∧ f.lo = 0x3#4 then
    if fast then .A_BLXR else .UNRECOGNIZED
  else if hi = 0x16#8 ∧ f.n = 0xF#4 ∧ f.s = 0xF#4 ∧ f.lo = 0x1#4 then if fast then .A_CLZ else .UNRECOGNIZED
  else if hi.extractLsb' 3 5 = 0b00010#5 ∧ hi.getLsbD 0 = false ∧ f.s = 0#4 ∧ f.lo = 0x5#4 then
    if fast then .A_QARITH else .UNRECOGNIZED
  else if hi = 0x12#8 ∧ f.lo = 0x7#4 then .UNRECOGNIZED
  else if hi.extractLsb' 3 5 = 0b00010#5 ∧ hi.getLsbD 0 = false ∧ f.lo.getLsbD 3 = true ∧ f.lo.getLsbD 0 = false then
    if fast then .A_DSPMUL else .UNRECOGNIZED
  else if (hi = 0x10#8 ∨ hi = 0x14#8) ∧ f.n = 0xF#4 ∧ f.s = 0#4 ∧ f.lo = 0#4 ∧ f.m = 0#4 then .A_MRS
  else if (hi = 0x12#8 ∨ hi = 0x16#8) ∧ f.d = 0xF#4 ∧ f.s = 0#4 ∧ f.lo = 0#4 then .A_MSR
  else if (hi = 0x32#8 ∨ hi = 0x36#8) ∧ f.d = 0xF#4 then .A_MSR
  else if hi.extractLsb' 2 6 = 0b000000#6 ∧ f.lo = 0x9#4 then .A_MUL
  else if hi.extractLsb' 3 5 = 0b00001#5 ∧ f.lo = 0x9#4 then .A_MULL
  else if (hi = 0x10#8 ∨ hi = 0x14#8) ∧ f.s = 0#4 ∧ f.lo = 0x9#4 then .A_SWP
  else if hi.extractLsb' 5 3 = 0b000#3 ∧ f.lo.getLsbD 3 = true ∧ f.lo.getLsbD 0 = true
      ∧ f.lo.extractLsb' 1 2 ≠ 0b00#2 then
    if hi.getLsbD 0 = false ∧ f.lo.getLsbD 2 = true then
      if fast then .A_HDT else .UNRECOGNIZED
    else .A_HDT
  else if hi.extractLsb' 5 3 = 0b000#3 ∧ f.lo.getLsbD 3 = true ∧ f.lo.getLsbD 0 = true then .UNRECOGNIZED
  else if hi.extractLsb' 3 5 = 0b00010#5 ∧ hi.getLsbD 0 = false then .UNRECOGNIZED
  else if hi.extractLsb' 3 5 = 0b00110#5 ∧ hi.extractLsb' 0 2 = 0b00#2 then .UNRECOGNIZED
  else if hi.extractLsb' 6 2 = 0b00#2 then .A_DP
  else if hi.extractLsb' 5 3 = 0b011#3 ∧ f.lo.getLsbD 0 = true then .UNRECOGNIZED
  else if hi.extractLsb' 6 2 = 0b01#2 then .A_SDT
  else if hi.extractLsb' 5 3 = 0b100#3 then .A_BDT
  else if hi.extractLsb' 5 3 = 0b101#3 then .A_B
  else if hi.extractLsb' 5 3 = 0b110#3 then .UNRECOGNIZED
  else if hi.extractLsb' 4 4 = 0b1110#4 ∧ f.lo.getLsbD 0 = true then
    if fast ∧ f.s = 0xF#4 then .A_CP else .UNRECOGNIZED
  else if hi.extractLsb' 4 4 = 0b1110#4 then .UNRECOGNIZED
  else .A_SWI

/-- `decode_thumb(k, h)` (30_encoding.md R97): the first matching test, in the order of the rule. -/
def classifyThumb (k : CoreId) (f : ThumbFields) : Tag :=
  let fast := k = .fast
  let t := f.t
  if t = 0b00011#5 then .T2_ADDSUB
  else if t.extractLsb' 2 3 = 0b000#3 then .T1_SHIFT
  else if t.extractLsb' 2 3 = 0b001#3 then .T3_IMM
  else if t = 0b01000#5 ∧ f.u.getLsbD 2 = false then .T4_ALU
  else if t = 0b01000#5 then
    if f.u.extractLsb' 0 2 = 0b11#2 ∧ f.v.getLsbD 1 = true then
      if fast then .T5_HIREG else .UNRECOGNIZED
    else if f.u.extractLsb' 0 2 = 0b11#2 then .T5_HIREG
    else if f.v = 0b00#2 then .UNRECOGNIZED
    else .T5_HIREG
  else if t = 0b01001#5 then .T6_LDRPC
  else if t.extractLsb' 1 4 = 0b0101#4 ∧ f.u.getLsbD 1 = false then .T7_LSREG
  else if t.extractLsb' 1 4 = 0b0101#4 then .T8_LSHREG
  else if t.extractLsb' 2 3 = 0b011#3 then .T9_LSIMM
  else if t.extractLsb' 1 4 = 0b1000#4 then .T10_LSHIMM
  else if t.extractLsb' 1 4 = 0b1001#4 then .T11_LSSP
  else if t.extractLsb' 1 4 = 0b1010#4 then .T12_ADDR
  else if t = 0b10110#5 ∧ f.u = 0b000#3 then .T13_ADDSP
  else if t.extractLsb' 1 4 = 0b1011#4 ∧ f.u.extractLsb' 1 2 = 0b10#2 then .T14_PUSHPOP
  else if t.extractLsb' 1 4 = 0b1011#4 then .UNRECOGNIZED
  else if t.extractLsb' 1 4 = 0b1100#4 then .T15_LSM
  else if t = 0b11011#5 ∧ f.u = 0b111#3 then .T17_SWI
  else if t = 0b11011#5 ∧ f.u = 0b110#3 then .UNRECOGNIZED
  else if t.extractLsb' 1 4 = 0b1101#4 then .T16_BCOND
  else if t = 0b11100#5 then .T18_B
  else if t = 0b11101#5 then if fast ∧ f.d.getLsbD 0 = false then .T19_BL else .UNRECOGNIZED
  else .T19_BL

/-! ## From the class to the instruction -/

/-- The reasons a word is no instruction.  Executing such a word stops the core with UNRECOGNIZED
(41_pipeline.md R152). -/
inductive DecodeReject where
  /-- Fewer bytes than the instruction width. -/
  | truncated
  /-- A word or halfword that matches no class on this core (30_encoding.md R100). -/
  | unrecognized
  /-- A form the spec lists as unpredictable (30_encoding.md R103). -/
  | unpredictable
  deriving DecidableEq, Repr

/-- A data-processing word: opcode, S and operand form (42_arm_dataproc.md R170). -/
def armDp (f : ArmFields) : Option Instr :=
  let c := Cond.ofBits f.c
  let s := f.hi.getLsbD 0
  let rn := Reg.ofBits f.n
  let rd := Reg.ofBits f.d
  let rm := Reg.ofBits f.m
  let rs := Reg.ofBits f.s
  let amount : BitVec 5 := f.s ++ f.lo.extractLsb' 3 1
  let ty := ShiftType.ofBits (f.lo.extractLsb' 1 2)
  let imm8 : BitVec 8 := f.lo ++ f.m
  let form : Nat := if f.hi.getLsbD 5 then 2 else if f.lo.getLsbD 0 then 1 else 0
  match (f.hi.extractLsb' 1 4).toNat, form with
  | 0, 0 => some (.andShiftImm c s rn rd amount ty rm)
  | 0, 1 => some (.andShiftReg c s rn rd rs ty rm)
  | 0, 2 => some (.andImm c s rn rd f.s imm8)
  | 1, 0 => some (.eorShiftImm c s rn rd amount ty rm)
  | 1, 1 => some (.eorShiftReg c s rn rd rs ty rm)
  | 1, 2 => some (.eorImm c s rn rd f.s imm8)
  | 2, 0 => some (.subShiftImm c s rn rd amount ty rm)
  | 2, 1 => some (.subShiftReg c s rn rd rs ty rm)
  | 2, 2 => some (.subImm c s rn rd f.s imm8)
  | 3, 0 => some (.rsbShiftImm c s rn rd amount ty rm)
  | 3, 1 => some (.rsbShiftReg c s rn rd rs ty rm)
  | 3, 2 => some (.rsbImm c s rn rd f.s imm8)
  | 4, 0 => some (.addShiftImm c s rn rd amount ty rm)
  | 4, 1 => some (.addShiftReg c s rn rd rs ty rm)
  | 4, 2 => some (.addImm c s rn rd f.s imm8)
  | 5, 0 => some (.adcShiftImm c s rn rd amount ty rm)
  | 5, 1 => some (.adcShiftReg c s rn rd rs ty rm)
  | 5, 2 => some (.adcImm c s rn rd f.s imm8)
  | 6, 0 => some (.sbcShiftImm c s rn rd amount ty rm)
  | 6, 1 => some (.sbcShiftReg c s rn rd rs ty rm)
  | 6, 2 => some (.sbcImm c s rn rd f.s imm8)
  | 7, 0 => some (.rscShiftImm c s rn rd amount ty rm)
  | 7, 1 => some (.rscShiftReg c s rn rd rs ty rm)
  | 7, 2 => some (.rscImm c s rn rd f.s imm8)
  | 8, 0 => some (.tstShiftImm c rn amount ty rm)
  | 8, 1 => some (.tstShiftReg c rn rs ty rm)
  | 8, 2 => some (.tstImm c rn f.s imm8)
  | 9, 0 => some (.teqShiftImm c rn amount ty rm)
  | 9, 1 => some (.teqShiftReg c rn rs ty rm)
  | 9, 2 => some (.teqImm c rn f.s imm8)
  | 10, 0 => some (.cmpShiftImm c rn amount ty rm)
  | 10, 1 => some (.cmpShiftReg c rn rs ty rm)
  | 10, 2 => some (.cmpImm c rn f.s imm8)
  | 11, 0 => some (.cmnShiftImm c rn amount ty rm)
  | 11, 1 => some (.cmnShiftReg c rn rs ty rm)
  | 11, 2 => some (.cmnImm c rn f.s imm8)
  | 12, 0 => some (.orrShiftImm c s rn rd amount ty rm)
  | 12, 1 => some (.orrShiftReg c s rn rd rs ty rm)
  | 12, 2 => some (.orrImm c s rn rd f.s imm8)
  | 13, 0 => some (.movShiftImm c s rd amount ty rm)
  | 13, 1 => some (.movShiftReg c s rd rs ty rm)
  | 13, 2 => some (.movImm c s rd f.s imm8)
  | 14, 0 => some (.bicShiftImm c s rn rd amount ty rm)
  | 14, 1 => some (.bicShiftReg c s rn rd rs ty rm)
  | 14, 2 => some (.bicImm c s rn rd f.s imm8)
  | 15, 0 => some (.mvnShiftImm c s rd amount ty rm)
  | 15, 1 => some (.mvnShiftReg c s rd rs ty rm)
  | 15, 2 => some (.mvnImm c s rd f.s imm8)
  | _, _ => none

/-- A single-transfer word (43_arm_loadstore.md R215 to R225). -/
def armSdt (f : ArmFields) : Option Instr :=
  let c := Cond.ofBits f.c
  let p := f.hi.getLsbD 4
  let w := f.hi.getLsbD 1
  let up := f.hi.getLsbD 3
  let rn := Reg.ofBits f.n
  let rd := Reg.ofBits f.d
  let rm := Reg.ofBits f.m
  let mode := IndexMode.ofBits p w
  let imm12 : BitVec 12 := f.s ++ f.lo ++ f.m
  let amount : BitVec 5 := f.s ++ f.lo.extractLsb' 3 1
  let ty := ShiftType.ofBits (f.lo.extractLsb' 1 2)
  match !p && w, f.hi.getLsbD 5, f.hi.getLsbD 2, f.hi.getLsbD 0 with
  | false, false, false, false => some (.strImm c mode up rn rd imm12)
  | false, false, false, true => some (.ldrImm c mode up rn rd imm12)
  | false, false, true, false => some (.strbImm c mode up rn rd imm12)
  | false, false, true, true => some (.ldrbImm c mode up rn rd imm12)
  | false, true, false, false => some (.strReg c mode up rn rd amount ty rm)
  | false, true, false, true => some (.ldrReg c mode up rn rd amount ty rm)
  | false, true, true, false => some (.strbReg c mode up rn rd amount ty rm)
  | false, true, true, true => some (.ldrbReg c mode up rn rd amount ty rm)
  | true, false, false, false => some (.strtImm c up rn rd imm12)
  | true, false, false, true => some (.ldrtImm c up rn rd imm12)
  | true, false, true, false => some (.strbtImm c up rn rd imm12)
  | true, false, true, true => some (.ldrbtImm c up rn rd imm12)
  | true, true, false, false => some (.strtReg c up rn rd amount ty rm)
  | true, true, false, true => some (.ldrtReg c up rn rd amount ty rm)
  | true, true, true, false => some (.strbtReg c up rn rd amount ty rm)
  | true, true, true, true => some (.ldrbtReg c up rn rd amount ty rm)

/-- A halfword, signed or doubleword transfer word (43_arm_loadstore.md R226); `none` for the unpredictable form
P = 0 with W = 1, which has no syntax. -/
def armHdt (f : ArmFields) : Option Instr :=
  let c := Cond.ofBits f.c
  let p := f.hi.getLsbD 4
  let w := f.hi.getLsbD 1
  let up := f.hi.getLsbD 3
  let rn := Reg.ofBits f.n
  let rd := Reg.ofBits f.d
  let mode := IndexMode.ofBits p w
  let off : HdtOffset := if f.hi.getLsbD 2 then .imm (f.s ++ f.m) else .reg (Reg.ofBits f.m)
  if !p && w then none
  else
    match f.hi.getLsbD 0, (f.lo.extractLsb' 1 2).toNat with
    | true, 1 => some (.ldrh c mode up rn rd off)
    | true, 2 => some (.ldrsb c mode up rn rd off)
    | true, 3 => some (.ldrsh c mode up rn rd off)
    | false, 1 => some (.strh c mode up rn rd off)
    | false, 2 => some (.ldrd c mode up rn rd off)
    | false, 3 => some (.strd c mode up rn rd off)
    | _, _ => none

/-- The instruction of an ARM word whose class is `t`; `none` where the class has no syntax for the word. -/
def armInstr (t : Tag) (f : ArmFields) : Option Instr :=
  let c := Cond.ofBits f.c
  let n := Reg.ofBits f.n
  let d := Reg.ofBits f.d
  let s := Reg.ofBits f.s
  let m := Reg.ofBits f.m
  let sb := f.hi.getLsbD 0
  let off24 : BitVec 24 := f.hi.extractLsb' 0 4 ++ f.n ++ f.d ++ f.s ++ f.lo ++ f.m
  match t with
  | .A_DP => armDp f
  | .A_MRS => some (.mrs c (f.hi.getLsbD 2) d)
  | .A_MSR =>
    if f.hi.getLsbD 5 then some (.msrImm c (f.hi.getLsbD 2) f.n f.s (f.lo ++ f.m))
    else some (.msrReg c (f.hi.getLsbD 2) f.n m)
  | .A_MUL => if f.hi.getLsbD 1 then some (.mla c sb n d s m) else some (.mul c sb n s m)
  | .A_MULL =>
    match f.hi.getLsbD 2, f.hi.getLsbD 1 with
    | false, false => some (.umull c sb n d s m)
    | false, true => some (.umlal c sb n d s m)
    | true, false => some (.smull c sb n d s m)
    | true, true => some (.smlal c sb n d s m)
  | .A_SWP => if f.hi.getLsbD 2 then some (.swpb c n d m) else some (.swp c n d m)
  | .A_BX => some (.bx c m)
  | .A_BLXR => some (.blxReg c m)
  | .A_CLZ => some (.clz c d m)
  | .A_QARITH =>
    match f.hi.getLsbD 2, f.hi.getLsbD 1 with
    | false, false => some (.qadd c n d m)
    | false, true => some (.qsub c n d m)
    | true, false => some (.qdadd c n d m)
    | true, true => some (.qdsub c n d m)
  | .A_DSPMUL =>
    let x := f.lo.getLsbD 1
    let y := f.lo.getLsbD 2
    match f.hi.getLsbD 2, f.hi.getLsbD 1 with
    | false, false => some (.smlaXY c x y n d s m)
    | false, true => if x then some (.smulwY c y n s m) else some (.smlawY c y n d s m)
    | true, false => some (.smlalXY c x y n d s m)
    | true, true => some (.smulXY c x y n s m)
  | .A_HDT => armHdt f
  | .A_SDT => armSdt f
  | .A_BDT =>
    let list : BitVec 16 := f.d ++ f.s ++ f.lo ++ f.m
    let bm := BlockMode.ofBits (f.hi.getLsbD 4) (f.hi.getLsbD 3)
    if sb then some (.ldm c bm (f.hi.getLsbD 2) (f.hi.getLsbD 1) n list)
    else some (.stm c bm (f.hi.getLsbD 2) (f.hi.getLsbD 1) n list)
  | .A_B => if f.hi.getLsbD 4 then some (.bl c off24) else some (.b c off24)
  | .A_BLXI => some (.blxImm (f.hi.getLsbD 4) off24)
  | .A_PLD => some (.pld (f.hi.getLsbD 5) (f.hi.getLsbD 3) n (f.s ++ f.lo ++ f.m))
  | .A_CP =>
    if sb then some (.mrc c (f.hi.extractLsb' 1 3) f.n d (f.lo.extractLsb' 1 3) f.m)
    else some (.mcr c (f.hi.extractLsb' 1 3) f.n d (f.lo.extractLsb' 1 3) f.m)
  | .A_SWI => some (.swi c off24)
  | _ => none

/-- The instruction of a Thumb halfword whose class is `t`. -/
def thumbInstr (t : Tag) (f : ThumbFields) : Option Instr :=
  let s := LoReg.ofBits f.s
  let d := LoReg.ofBits f.d
  let x3 : BitVec 3 := f.u.extractLsb' 0 1 ++ f.v
  let n := LoReg.ofBits x3
  let u := LoReg.ofBits f.u
  let imm5 : BitVec 5 := f.u ++ f.v
  let imm8 : BitVec 8 := f.v ++ f.s ++ f.d
  let imm11 : BitVec 11 := f.u ++ f.v ++ f.s ++ f.d
  let hd := Reg.ofBits (f.v.extractLsb' 1 1 ++ f.d)
  let hm := Reg.ofBits (f.v.extractLsb' 0 1 ++ f.s)
  match t with
  | .T1_SHIFT =>
    match (f.t.extractLsb' 0 2).toNat with
    | 0 => some (.tLslImm imm5 s d)
    | 1 => some (.tLsrImm imm5 s d)
    | _ => some (.tAsrImm imm5 s d)
  | .T2_ADDSUB =>
    match f.u.getLsbD 2, f.u.getLsbD 1 with
    | false, false => some (.tAddReg n s d)
    | false, true => some (.tSubReg n s d)
    | true, false => some (.tAddImm3 x3 s d)
    | true, true => some (.tSubImm3 x3 s d)
  | .T3_IMM =>
    match (f.t.extractLsb' 0 2).toNat with
    | 0 => some (.tMovImm8 u imm8)
    | 1 => some (.tCmpImm8 u imm8)
    | 2 => some (.tAddImm8 u imm8)
    | _ => some (.tSubImm8 u imm8)
  | .T4_ALU =>
    match (f.u.extractLsb' 0 2 ++ f.v).toNat with
    | 0 => some (.tAndAlu s d)
    | 1 => some (.tEorAlu s d)
    | 2 => some (.tLslAlu s d)
    | 3 => some (.tLsrAlu s d)
    | 4 => some (.tAsrAlu s d)
    | 5 => some (.tAdcAlu s d)
    | 6 => some (.tSbcAlu s d)
    | 7 => some (.tRorAlu s d)
    | 8 => some (.tTstAlu s d)
    | 9 => some (.tNegAlu s d)
    | 10 => some (.tCmpAlu s d)
    | 11 => some (.tCmnAlu s d)
    | 12 => some (.tOrrAlu s d)
    | 13 => some (.tMulAlu s d)
    | 14 => some (.tBicAlu s d)
    | _ => some (.tMvnAlu s d)
  | .T5_HIREG =>
    match (f.u.extractLsb' 0 2).toNat, f.v.getLsbD 1 with
    | 0, _ => some (.tAddHi hd hm)
    | 1, _ => some (.tCmpHi hd hm)
    | 2, _ => some (.tMovHi hd hm)
    | _, false => some (.tBx hm)
    | _, true => some (.tBlxReg hm)
  | .T6_LDRPC => some (.tLdrPc u imm8)
  | .T7_LSREG =>
    match f.t.getLsbD 0, f.u.getLsbD 2 with
    | false, false => some (.tStrReg n s d)
    | false, true => some (.tStrbReg n s d)
    | true, false => some (.tLdrReg n s d)
    | true, true => some (.tLdrbReg n s d)
  | .T8_LSHREG =>
    match f.t.getLsbD 0, f.u.getLsbD 2 with
    | false, false => some (.tStrhReg n s d)
    | false, true => some (.tLdrsbReg n s d)
    | true, false => some (.tLdrhReg n s d)
    | true, true => some (.tLdrshReg n s d)
  | .T9_LSIMM =>
    match f.t.getLsbD 1, f.t.getLsbD 0 with
    | false, false => some (.tStrImm imm5 s d)
    | false, true => some (.tLdrImm imm5 s d)
    | true, false => some (.tStrbImm imm5 s d)
    | true, true => some (.tLdrbImm imm5 s d)
  | .T10_LSHIMM => if f.t.getLsbD 0 then some (.tLdrhImm imm5 s d) else some (.tStrhImm imm5 s d)
  | .T11_LSSP => if f.t.getLsbD 0 then some (.tLdrSp u imm8) else some (.tStrSp u imm8)
  | .T12_ADDR => if f.t.getLsbD 0 then some (.tAddSp u imm8) else some (.tAddPc u imm8)
  | .T13_ADDSP =>
    let imm7 : BitVec 7 := f.v.extractLsb' 0 1 ++ f.s ++ f.d
    if f.v.getLsbD 1 then some (.tDecSp imm7) else some (.tIncSp imm7)
  | .T14_PUSHPOP =>
    if f.t.getLsbD 0 then some (.tPop (f.u.getLsbD 0) imm8) else some (.tPush (f.u.getLsbD 0) imm8)
  | .T15_LSM => if f.t.getLsbD 0 then some (.tLdmia u imm8) else some (.tStmia u imm8)
  | .T16_BCOND => some (.tBCond (Cond.ofBits (f.t.extractLsb' 0 1 ++ f.u)) imm8)
  | .T17_SWI => some (.tSwi imm8)
  | .T18_B => some (.tB imm11)
  | .T19_BL =>
    if f.t.getLsbD 1 = false then some (.tBlxSuffix (f.u ++ f.v ++ f.s ++ f.d.extractLsb' 1 2))
    else if f.t.getLsbD 0 then some (.tBlSuffix imm11) else some (.tBlPrefix imm11)
  | _ => none

/-! ## Availability, class and unpredictable forms of an instruction -/

/-- The class tag decode gives the instruction's word (30_encoding.md R98, R100). -/
def Instr.tag : Instr → Tag
  | .andShiftImm .. => .A_DP
  | .andShiftReg .. => .A_DP
  | .andImm .. => .A_DP
  | .eorShiftImm .. => .A_DP
  | .eorShiftReg .. => .A_DP
  | .eorImm .. => .A_DP
  | .subShiftImm .. => .A_DP
  | .subShiftReg .. => .A_DP
  | .subImm .. => .A_DP
  | .rsbShiftImm .. => .A_DP
  | .rsbShiftReg .. => .A_DP
  | .rsbImm .. => .A_DP
  | .addShiftImm .. => .A_DP
  | .addShiftReg .. => .A_DP
  | .addImm .. => .A_DP
  | .adcShiftImm .. => .A_DP
  | .adcShiftReg .. => .A_DP
  | .adcImm .. => .A_DP
  | .sbcShiftImm .. => .A_DP
  | .sbcShiftReg .. => .A_DP
  | .sbcImm .. => .A_DP
  | .rscShiftImm .. => .A_DP
  | .rscShiftReg .. => .A_DP
  | .rscImm .. => .A_DP
  | .tstShiftImm .. => .A_DP
  | .tstShiftReg .. => .A_DP
  | .tstImm .. => .A_DP
  | .teqShiftImm .. => .A_DP
  | .teqShiftReg .. => .A_DP
  | .teqImm .. => .A_DP
  | .cmpShiftImm .. => .A_DP
  | .cmpShiftReg .. => .A_DP
  | .cmpImm .. => .A_DP
  | .cmnShiftImm .. => .A_DP
  | .cmnShiftReg .. => .A_DP
  | .cmnImm .. => .A_DP
  | .orrShiftImm .. => .A_DP
  | .orrShiftReg .. => .A_DP
  | .orrImm .. => .A_DP
  | .movShiftImm .. => .A_DP
  | .movShiftReg .. => .A_DP
  | .movImm .. => .A_DP
  | .bicShiftImm .. => .A_DP
  | .bicShiftReg .. => .A_DP
  | .bicImm .. => .A_DP
  | .mvnShiftImm .. => .A_DP
  | .mvnShiftReg .. => .A_DP
  | .mvnImm .. => .A_DP
  | .mrs .. => .A_MRS
  | .msrReg .. => .A_MSR
  | .msrImm .. => .A_MSR
  | .mul .. => .A_MUL
  | .mla .. => .A_MUL
  | .umull .. => .A_MULL
  | .umlal .. => .A_MULL
  | .smull .. => .A_MULL
  | .smlal .. => .A_MULL
  | .clz .. => .A_CLZ
  | .qadd .. => .A_QARITH
  | .qsub .. => .A_QARITH
  | .qdadd .. => .A_QARITH
  | .qdsub .. => .A_QARITH
  | .smlaXY .. => .A_DSPMUL
  | .smlawY .. => .A_DSPMUL
  | .smulwY .. => .A_DSPMUL
  | .smlalXY .. => .A_DSPMUL
  | .smulXY .. => .A_DSPMUL
  | .ldrImm .. => .A_SDT
  | .ldrReg .. => .A_SDT
  | .strImm .. => .A_SDT
  | .strReg .. => .A_SDT
  | .ldrbImm .. => .A_SDT
  | .ldrbReg .. => .A_SDT
  | .strbImm .. => .A_SDT
  | .strbReg .. => .A_SDT
  | .ldrtImm .. => .A_SDT
  | .ldrtReg .. => .A_SDT
  | .strtImm .. => .A_SDT
  | .strtReg .. => .A_SDT
  | .ldrbtImm .. => .A_SDT
  | .ldrbtReg .. => .A_SDT
  | .strbtImm .. => .A_SDT
  | .strbtReg .. => .A_SDT
  | .ldrh .. => .A_HDT
  | .strh .. => .A_HDT
  | .ldrsb .. => .A_HDT
  | .ldrsh .. => .A_HDT
  | .ldrd .. => .A_HDT
  | .strd .. => .A_HDT
  | .ldm .. => .A_BDT
  | .stm .. => .A_BDT
  | .swp .. => .A_SWP
  | .swpb .. => .A_SWP
  | .pld .. => .A_PLD
  | .b .. => .A_B
  | .bl .. => .A_B
  | .bx .. => .A_BX
  | .blxImm .. => .A_BLXI
  | .blxReg .. => .A_BLXR
  | .swi .. => .A_SWI
  | .bkpt .. => .UNRECOGNIZED
  | .mcr .. => .A_CP
  | .mrc .. => .A_CP
  | .tLslImm .. => .T1_SHIFT
  | .tLsrImm .. => .T1_SHIFT
  | .tAsrImm .. => .T1_SHIFT
  | .tAddReg .. => .T2_ADDSUB
  | .tSubReg .. => .T2_ADDSUB
  | .tAddImm3 .. => .T2_ADDSUB
  | .tSubImm3 .. => .T2_ADDSUB
  | .tMovImm8 .. => .T3_IMM
  | .tCmpImm8 .. => .T3_IMM
  | .tAddImm8 .. => .T3_IMM
  | .tSubImm8 .. => .T3_IMM
  | .tAndAlu .. => .T4_ALU
  | .tEorAlu .. => .T4_ALU
  | .tLslAlu .. => .T4_ALU
  | .tLsrAlu .. => .T4_ALU
  | .tAsrAlu .. => .T4_ALU
  | .tAdcAlu .. => .T4_ALU
  | .tSbcAlu .. => .T4_ALU
  | .tRorAlu .. => .T4_ALU
  | .tTstAlu .. => .T4_ALU
  | .tNegAlu .. => .T4_ALU
  | .tCmpAlu .. => .T4_ALU
  | .tCmnAlu .. => .T4_ALU
  | .tOrrAlu .. => .T4_ALU
  | .tMulAlu .. => .T4_ALU
  | .tBicAlu .. => .T4_ALU
  | .tMvnAlu .. => .T4_ALU
  | .tAddHi .. => .T5_HIREG
  | .tCmpHi .. => .T5_HIREG
  | .tMovHi .. => .T5_HIREG
  | .tBx .. => .T5_HIREG
  | .tBlxReg .. => .T5_HIREG
  | .tLdrPc .. => .T6_LDRPC
  | .tStrReg .. => .T7_LSREG
  | .tStrbReg .. => .T7_LSREG
  | .tLdrReg .. => .T7_LSREG
  | .tLdrbReg .. => .T7_LSREG
  | .tStrhReg .. => .T8_LSHREG
  | .tLdrsbReg .. => .T8_LSHREG
  | .tLdrhReg .. => .T8_LSHREG
  | .tLdrshReg .. => .T8_LSHREG
  | .tStrImm .. => .T9_LSIMM
  | .tLdrImm .. => .T9_LSIMM
  | .tStrbImm .. => .T9_LSIMM
  | .tLdrbImm .. => .T9_LSIMM
  | .tStrhImm .. => .T10_LSHIMM
  | .tLdrhImm .. => .T10_LSHIMM
  | .tStrSp .. => .T11_LSSP
  | .tLdrSp .. => .T11_LSSP
  | .tAddPc .. => .T12_ADDR
  | .tAddSp .. => .T12_ADDR
  | .tIncSp .. => .T13_ADDSP
  | .tDecSp .. => .T13_ADDSP
  | .tPush .. => .T14_PUSHPOP
  | .tPop .. => .T14_PUSHPOP
  | .tStmia .. => .T15_LSM
  | .tLdmia .. => .T15_LSM
  | .tBCond .. => .T16_BCOND
  | .tSwi .. => .T17_SWI
  | .tB .. => .T18_B
  | .tBlPrefix .. => .T19_BL
  | .tBlSuffix .. => .T19_BL
  | .tBlxSuffix .. => .T19_BL

/-- Whether the instruction belongs to ARMv5TE only, and so to FAST only (30_encoding.md R99). -/
def Instr.fastOnly : Instr → Bool
  | .clz .. => true
  | .qadd .. => true
  | .qsub .. => true
  | .qdadd .. => true
  | .qdsub .. => true
  | .smlaXY .. => true
  | .smlawY .. => true
  | .smulwY .. => true
  | .smlalXY .. => true
  | .smulXY .. => true
  | .ldrd .. => true
  | .strd .. => true
  | .pld .. => true
  | .blxImm .. => true
  | .blxReg .. => true
  | .mcr .. => true
  | .mrc .. => true
  | .tBlxReg .. => true
  | .tBlxSuffix .. => true
  | _ => false

/-- Whether core `k` has the instruction (30_encoding.md R99). -/
def Instr.availableOn (i : Instr) (k : CoreId) : Bool := k == .fast || !i.fastOnly

/-- The unpredictable forms of A_SDT (43_arm_loadstore.md R217): `wb` write-back, `byte` a byte transfer, `rm` the
register offset. -/
def sdtUnpredictable (wb byte : Bool) (rn rd : Reg) (rm : Option Reg) : Bool :=
  (wb && rn == .r15) || rm == some .r15 || (byte && rd == .r15)

/-- The register of a halfword transfer's offset. -/
def HdtOffset.reg? : HdtOffset → Option Reg
  | .imm _ => none
  | .reg rm => some rm

/-- The unpredictable forms common to A_HDT (43_arm_loadstore.md R226). -/
def hdtUnpredictable (mode : IndexMode) (rn rd : Reg) (off : HdtOffset) : Bool :=
  (mode != .offset && rn == .r15) || off.reg? == some .r15 || rd == .r15

/-- The register after `r`; `r15` has none and is its own. -/
def Reg.succ : Reg → Reg
  | .r0 => .r1
  | .r1 => .r2
  | .r2 => .r3
  | .r3 => .r4
  | .r4 => .r5
  | .r5 => .r6
  | .r6 => .r7
  | .r7 => .r8
  | .r8 => .r9
  | .r9 => .r10
  | .r10 => .r11
  | .r11 => .r12
  | .r12 => .r13
  | .r13 => .r14
  | .r14 => .r15
  | .r15 => .r15

/-- Whether a register number is odd. -/
def Reg.odd (r : Reg) : Bool := r.toBits.getLsbD 0

/-- The further unpredictable forms of LDRD (43_arm_loadstore.md R231). -/
def ldrdUnpredictable (mode : IndexMode) (rn rd : Reg) (off : HdtOffset) : Bool :=
  rd.odd || rd == .r14 || (mode != .offset && (rn == rd || rn == rd.succ))
    || off.reg? == some rd || off.reg? == some rd.succ

/-- Whether bit `r` of a register list is set. -/
def listHas (list : BitVec 16) (r : Reg) : Bool := list.getLsbD r.toBits.toNat

/-- Whether a register of a list stands below `r`. -/
def listBelow (list : BitVec 16) (r : Reg) : Bool := list &&& ((1#16 <<< r.toBits.toNat) - 1#16) != 0#16

/-- The unpredictable forms of LDM (43_arm_loadstore.md R237). -/
def ldmUnpredictable (s w : Bool) (rn : Reg) (list : BitVec 16) : Bool :=
  rn == .r15 || list == 0#16 || (s && w && !listHas list .r15) || (w && listHas list rn)

/-- The unpredictable forms of STM (43_arm_loadstore.md R237). -/
def stmUnpredictable (s w : Bool) (rn : Reg) (list : BitVec 16) : Bool :=
  rn == .r15 || list == 0#16 || (s && w) || (w && listHas list rn && listBelow list rn)

/-- `unpredictable_word` on the decoded instruction: the forms that the "Unpredictable (decode)" clauses of the
instruction rules list (41_pipeline.md R145, 93_implementation_defined.md U2).  The ignored Rd of TST, TEQ, CMP
and CMN and the ignored Rn of MOV and MVN are no operands (30_encoding.md R105; notes/assumptions/12.md). -/
def Instr.unpredictable : Instr → Bool
  | .andShiftReg _ _ rn rd rs _ rm => rn == .r15 || rd == .r15 || rs == .r15 || rm == .r15
  | .eorShiftReg _ _ rn rd rs _ rm => rn == .r15 || rd == .r15 || rs == .r15 || rm == .r15
  | .subShiftReg _ _ rn rd rs _ rm => rn == .r15 || rd == .r15 || rs == .r15 || rm == .r15
  | .rsbShiftReg _ _ rn rd rs _ rm => rn == .r15 || rd == .r15 || rs == .r15 || rm == .r15
  | .addShiftReg _ _ rn rd rs _ rm => rn == .r15 || rd == .r15 || rs == .r15 || rm == .r15
  | .adcShiftReg _ _ rn rd rs _ rm => rn == .r15 || rd == .r15 || rs == .r15 || rm == .r15
  | .sbcShiftReg _ _ rn rd rs _ rm => rn == .r15 || rd == .r15 || rs == .r15 || rm == .r15
  | .rscShiftReg _ _ rn rd rs _ rm => rn == .r15 || rd == .r15 || rs == .r15 || rm == .r15
  | .tstShiftReg _ rn rs _ rm => rn == .r15 || rs == .r15 || rm == .r15
  | .teqShiftReg _ rn rs _ rm => rn == .r15 || rs == .r15 || rm == .r15
  | .cmpShiftReg _ rn rs _ rm => rn == .r15 || rs == .r15 || rm == .r15
  | .cmnShiftReg _ rn rs _ rm => rn == .r15 || rs == .r15 || rm == .r15
  | .orrShiftReg _ _ rn rd rs _ rm => rn == .r15 || rd == .r15 || rs == .r15 || rm == .r15
  | .movShiftReg _ _ rd rs _ rm => rd == .r15 || rs == .r15 || rm == .r15
  | .bicShiftReg _ _ rn rd rs _ rm => rn == .r15 || rd == .r15 || rs == .r15 || rm == .r15
  | .mvnShiftReg _ _ rd rs _ rm => rd == .r15 || rs == .r15 || rm == .r15
  | .mrs _ _ rd => rd == .r15
  | .msrReg _ _ _ rm => rm == .r15
  | .mul _ _ rd rs rm => rd == .r15 || rs == .r15 || rm == .r15
  | .mla _ _ rd rn rs rm => rd == .r15 || rn == .r15 || rs == .r15 || rm == .r15
  | .umull _ _ rdHi rdLo rs rm => rdHi == .r15 || rdLo == .r15 || rs == .r15 || rm == .r15 || rdHi == rdLo
  | .umlal _ _ rdHi rdLo rs rm => rdHi == .r15 || rdLo == .r15 || rs == .r15 || rm == .r15 || rdHi == rdLo
  | .smull _ _ rdHi rdLo rs rm => rdHi == .r15 || rdLo == .r15 || rs == .r15 || rm == .r15 || rdHi == rdLo
  | .smlal _ _ rdHi rdLo rs rm => rdHi == .r15 || rdLo == .r15 || rs == .r15 || rm == .r15 || rdHi == rdLo
  | .clz _ rd rm => rd == .r15 || rm == .r15
  | .qadd _ rn rd rm => rn == .r15 || rd == .r15 || rm == .r15
  | .qsub _ rn rd rm => rn == .r15 || rd == .r15 || rm == .r15
  | .qdadd _ rn rd rm => rn == .r15 || rd == .r15 || rm == .r15
  | .qdsub _ rn rd rm => rn == .r15 || rd == .r15 || rm == .r15
  | .smlaXY _ _ _ rd rn rs rm => rd == .r15 || rn == .r15 || rs == .r15 || rm == .r15
  | .smlawY _ _ rd rn rs rm => rd == .r15 || rn == .r15 || rs == .r15 || rm == .r15
  | .smulwY _ _ rd rs rm => rd == .r15 || rs == .r15 || rm == .r15
  | .smlalXY _ _ _ rdHi rdLo rs rm => rdHi == .r15 || rdLo == .r15 || rs == .r15 || rm == .r15 || rdHi == rdLo
  | .smulXY _ _ _ rd rs rm => rd == .r15 || rs == .r15 || rm == .r15
  | .ldrImm _ mode _ rn rd _ => sdtUnpredictable (mode != .offset) false rn rd none
  | .ldrReg _ mode _ rn rd _ _ rm => sdtUnpredictable (mode != .offset) false rn rd (some rm)
  | .strImm _ mode _ rn rd _ => sdtUnpredictable (mode != .offset) false rn rd none
  | .strReg _ mode _ rn rd _ _ rm => sdtUnpredictable (mode != .offset) false rn rd (some rm)
  | .ldrbImm _ mode _ rn rd _ => sdtUnpredictable (mode != .offset) true rn rd none
  | .ldrbReg _ mode _ rn rd _ _ rm => sdtUnpredictable (mode != .offset) true rn rd (some rm)
  | .strbImm _ mode _ rn rd _ => sdtUnpredictable (mode != .offset) true rn rd none
  | .strbReg _ mode _ rn rd _ _ rm => sdtUnpredictable (mode != .offset) true rn rd (some rm)
  | .ldrtImm _ _ rn rd _ => sdtUnpredictable true false rn rd none
  | .ldrtReg _ _ rn rd _ _ rm => sdtUnpredictable true false rn rd (some rm)
  | .strtImm _ _ rn rd _ => sdtUnpredictable true false rn rd none
  | .strtReg _ _ rn rd _ _ rm => sdtUnpredictable true false rn rd (some rm)
  | .ldrbtImm _ _ rn rd _ => sdtUnpredictable true true rn rd none
  | .ldrbtReg _ _ rn rd _ _ rm => sdtUnpredictable true true rn rd (some rm)
  | .strbtImm _ _ rn rd _ => sdtUnpredictable true true rn rd none
  | .strbtReg _ _ rn rd _ _ rm => sdtUnpredictable true true rn rd (some rm)
  | .ldrh _ mode _ rn rd off => hdtUnpredictable mode rn rd off
  | .strh _ mode _ rn rd off => hdtUnpredictable mode rn rd off
  | .ldrsb _ mode _ rn rd off => hdtUnpredictable mode rn rd off
  | .ldrsh _ mode _ rn rd off => hdtUnpredictable mode rn rd off
  | .ldrd _ mode _ rn rd off => hdtUnpredictable mode rn rd off || ldrdUnpredictable mode rn rd off
  | .strd _ mode _ rn rd off => hdtUnpredictable mode rn rd off || rd.odd || rd == .r14
  | .ldm _ _ s w rn list => ldmUnpredictable s w rn list
  | .stm _ _ s w rn list => stmUnpredictable s w rn list
  | .swp _ rn rd rm => rd == .r15 || rn == .r15 || rm == .r15 || rn == rm || rn == rd
  | .swpb _ rn rd rm => rd == .r15 || rn == .r15 || rm == .r15 || rn == rm || rn == rd
  | .blxReg _ rm => rm == .r15
  | .mcr _ _ _ rd _ _ => rd == .r15
  | .tAddHi rd rm => !rd.toBits.getLsbD 3 && !rm.toBits.getLsbD 3
  | .tCmpHi rd rm => (!rd.toBits.getLsbD 3 && !rm.toBits.getLsbD 3) || rd == .r15
  | .tMovHi rd rm => !rd.toBits.getLsbD 3 && !rm.toBits.getLsbD 3
  | .tBlxReg rm => rm == .r15
  | .tPush lr list => list == 0#8 && !lr
  | .tPop pc list => list == 0#8 && !pc
  | .tStmia rb list =>
    list == 0#8 || (list.getLsbD rb.toBits.toNat && listBelow (list.setWidth 16) (Machine.loReg rb))
  | .tLdmia rb list => list == 0#8 || list.getLsbD rb.toBits.toNat
  | _ => false

/-- Whether executing the instruction on core `k` performs its rule: the core has it, it is no unpredictable form,
and its tag is a class tag (30_encoding.md R99, R100, R103). -/
def Instr.recognizedOn (i : Instr) (k : CoreId) : Bool :=
  i.availableOn k && !i.unpredictable && i.tag != .UNRECOGNIZED

/-- Whether the instruction is a Thumb halfword (30_encoding.md R85). -/
def Instr.isThumb : Instr → Bool
  | .tLslImm .. => true
  | .tLsrImm .. => true
  | .tAsrImm .. => true
  | .tAddReg .. => true
  | .tSubReg .. => true
  | .tAddImm3 .. => true
  | .tSubImm3 .. => true
  | .tMovImm8 .. => true
  | .tCmpImm8 .. => true
  | .tAddImm8 .. => true
  | .tSubImm8 .. => true
  | .tAndAlu .. => true
  | .tEorAlu .. => true
  | .tLslAlu .. => true
  | .tLsrAlu .. => true
  | .tAsrAlu .. => true
  | .tAdcAlu .. => true
  | .tSbcAlu .. => true
  | .tRorAlu .. => true
  | .tTstAlu .. => true
  | .tNegAlu .. => true
  | .tCmpAlu .. => true
  | .tCmnAlu .. => true
  | .tOrrAlu .. => true
  | .tMulAlu .. => true
  | .tBicAlu .. => true
  | .tMvnAlu .. => true
  | .tAddHi .. => true
  | .tCmpHi .. => true
  | .tMovHi .. => true
  | .tBx .. => true
  | .tBlxReg .. => true
  | .tLdrPc .. => true
  | .tStrReg .. => true
  | .tStrbReg .. => true
  | .tLdrReg .. => true
  | .tLdrbReg .. => true
  | .tStrhReg .. => true
  | .tLdrsbReg .. => true
  | .tLdrhReg .. => true
  | .tLdrshReg .. => true
  | .tStrImm .. => true
  | .tLdrImm .. => true
  | .tStrbImm .. => true
  | .tLdrbImm .. => true
  | .tStrhImm .. => true
  | .tLdrhImm .. => true
  | .tStrSp .. => true
  | .tLdrSp .. => true
  | .tAddPc .. => true
  | .tAddSp .. => true
  | .tIncSp .. => true
  | .tDecSp .. => true
  | .tPush .. => true
  | .tPop .. => true
  | .tStmia .. => true
  | .tLdmia .. => true
  | .tBCond .. => true
  | .tSwi .. => true
  | .tB .. => true
  | .tBlPrefix .. => true
  | .tBlSuffix .. => true
  | .tBlxSuffix .. => true
  | _ => false

/-! ## Decoding -/

/-- The BKPT pattern (30_encoding.md R88), which decode tags UNRECOGNIZED (notes/assumptions/16.md). -/
def armBkpt? (f : ArmFields) : Option Instr :=
  if f.c = 0xE#4 ∧ f.hi = 0x12#8 ∧ f.lo = 0x7#4 then some (.bkpt (f.n ++ f.d ++ f.s ++ f.m)) else none

/-- The instruction a class and a core give, or why there is none (41_pipeline.md R145). -/
def finishDecode (i : Option Instr) : Except DecodeReject Instr :=
  match i with
  | none => .error .unpredictable
  | some i => if i.unpredictable then .error .unpredictable else .ok i

/-- The words of A_BLXI on SLOW, which has no such class: UNRECOGNIZED by 30_encoding.md R99 and
93_implementation_defined.md U1.3, a test after the class test as R95 allows.  That R99 governs and not the fall-through
of R95 to A_B is DEDUCED, unsafe for the tag alone: either way the word is skipped, R104 (notes/assumptions/24.md). -/
def blxImmOnSlow (k : CoreId) (f : ArmFields) : Bool := k == .slow && f.c == 0xF#4 && f.hi.extractLsb' 5 3 == 0b101#3

/-- Decoding the fields of an ARM word on core `k`. -/
def decodeArmFields (k : CoreId) (f : ArmFields) : Except DecodeReject Instr :=
  match armBkpt? f with
  | some i => .ok i
  | none =>
    let t := classifyArm k f
    if t = .UNRECOGNIZED ∨ blxImmOnSlow k f = true then .error .unrecognized else finishDecode (armInstr t f)

/-- Decoding the fields of a Thumb halfword on core `k`. -/
def decodeThumbFields (k : CoreId) (f : ThumbFields) : Except DecodeReject Instr :=
  let t := classifyThumb k f
  if t = .UNRECOGNIZED then
    if f.t = 0b01000#5 ∧ f.u.extractLsb' 0 2 ≠ 0b11#2 then .error .unpredictable else .error .unrecognized
  else finishDecode (thumbInstr t f)

/-- Decoding a 32-bit slot word on core `k` in the state `thumb` (30_encoding.md R86). -/
def decodeWord (k : CoreId) (thumb : Bool) (w : Word) : Except DecodeReject Instr :=
  if thumb then decodeThumbFields k (ThumbFields.ofHalf (w.extractLsb' 0 16)) else decodeArmFields k (ArmFields.ofWord w)

/-- The tag that decode gives a RAW slot: the class, or UNRECOGNIZED for an unpredictable form too
(41_pipeline.md R145). -/
def decodeTag (k : CoreId) (thumb : Bool) (w : Word) : Tag :=
  match decodeWord k thumb w with
  | .ok i => i.tag
  | .error _ => .UNRECOGNIZED

/-- Little-endian bytes as a word (20_memory.md R62). -/
def wordOfBytes (b0 b1 b2 b3 : Byte) : Word := b3 ++ b2 ++ b1 ++ b0

/-- Decoding bytes as they stand in memory, lowest address first; the rest of the bytes comes back. -/
def decode (k : CoreId) (thumb : Bool) (bs : List Byte) : Except DecodeReject (Instr × List Byte) :=
  match thumb, bs with
  | true, b0 :: b1 :: rest => (decodeWord k true (wordOfBytes b0 b1 0#8 0#8)).map fun i => (i, rest)
  | false, b0 :: b1 :: b2 :: b3 :: rest => (decodeWord k false (wordOfBytes b0 b1 b2 b3)).map fun i => (i, rest)
  | _, _ => .error .truncated

/-! ## Encoding -/

/-- The word of an ARM instruction whose fields are given. -/
def armWord (c : Cond) (hi : BitVec 8) (n d s lo m : BitVec 4) : Word := (ArmFields.mk c.toBits hi n d s lo m).toWord

/-- The opcode byte of a data-processing word: `00I oooo S` (30_encoding.md R88). -/
def dpHi (i : Bool) (op : BitVec 4) (s : Bool) : BitVec 8 := 0b00#2 ++ bit i ++ op ++ bit s

/-- Bits 7:4 of a shift by an immediate: `itt0` (30_encoding.md R88). -/
def shiftLo (amount : BitVec 5) (ty : ShiftType) : BitVec 4 := amount.extractLsb' 0 1 ++ ty.toBits ++ 0#1

/-- Bits 7:4 of a shift by a register: `0tt1` (30_encoding.md R88). -/
def shiftRegLo (ty : ShiftType) : BitVec 4 := 0#1 ++ ty.toBits ++ 1#1

/-- A data-processing word with an immediate-shift operand. -/
def encDpShiftImm (c : Cond) (op : BitVec 4) (s : Bool) (n d : BitVec 4) (amount : BitVec 5) (ty : ShiftType) (rm : Reg) :
    Word := armWord c (dpHi false op s) n d (amount.extractLsb' 1 4) (shiftLo amount ty) rm.toBits

/-- A data-processing word with a register-shift operand. -/
def encDpShiftReg (c : Cond) (op : BitVec 4) (s : Bool) (n d : BitVec 4) (rs : Reg) (ty : ShiftType) (rm : Reg) : Word :=
  armWord c (dpHi false op s) n d rs.toBits (shiftRegLo ty) rm.toBits

/-- A data-processing word with an immediate operand. -/
def encDpImm (c : Cond) (op : BitVec 4) (s : Bool) (n d rot : BitVec 4) (imm8 : BitVec 8) : Word :=
  armWord c (dpHi true op s) n d rot (imm8.extractLsb' 4 4) (imm8.extractLsb' 0 4)

/-- The opcode byte of a single transfer: `01I P U B W L` (30_encoding.md R88). -/
def sdtHi (i p up b w l : Bool) : BitVec 8 := 0b01#2 ++ bit i ++ bit p ++ bit up ++ bit b ++ bit w ++ bit l

/-- A single-transfer word with an immediate offset. -/
def encSdtImm (c : Cond) (pw : Bool × Bool) (up b l : Bool) (rn rd : Reg) (imm12 : BitVec 12) : Word :=
  armWord c (sdtHi false pw.1 up b pw.2 l) rn.toBits rd.toBits (imm12.extractLsb' 8 4) (imm12.extractLsb' 4 4)
    (imm12.extractLsb' 0 4)

/-- A single-transfer word with a shifted register offset. -/
def encSdtReg (c : Cond) (pw : Bool × Bool) (up b l : Bool) (rn rd : Reg) (amount : BitVec 5) (ty : ShiftType) (rm : Reg) :
    Word :=
  armWord c (sdtHi true pw.1 up b pw.2 l) rn.toBits rd.toBits (amount.extractLsb' 1 4) (shiftLo amount ty) rm.toBits

/-- The opcode byte of a halfword transfer: `000 P U I W L` (30_encoding.md R88). -/
def hdtHi (p up i w l : Bool) : BitVec 8 := 0b000#3 ++ bit p ++ bit up ++ bit i ++ bit w ++ bit l

/-- A halfword, signed or doubleword transfer word; `sh` is bits 6:5. -/
def encHdt (c : Cond) (mode : IndexMode) (up l : Bool) (sh : BitVec 2) (rn rd : Reg) (off : HdtOffset) : Word :=
  let pw := mode.toBits
  match off with
  | .imm v =>
    armWord c (hdtHi pw.1 up true pw.2 l) rn.toBits rd.toBits (v.extractLsb' 4 4) (1#1 ++ sh ++ 1#1) (v.extractLsb' 0 4)
  | .reg rm => armWord c (hdtHi pw.1 up false pw.2 l) rn.toBits rd.toBits 0#4 (1#1 ++ sh ++ 1#1) rm.toBits

/-- A block-transfer word: `100 P U S W L` (30_encoding.md R88). -/
def encBdt (c : Cond) (bm : BlockMode) (s w l : Bool) (rn : Reg) (list : BitVec 16) : Word :=
  armWord c (0b100#3 ++ bit bm.toBits.1 ++ bit bm.toBits.2 ++ bit s ++ bit w ++ bit l) rn.toBits (list.extractLsb' 12 4)
    (list.extractLsb' 8 4) (list.extractLsb' 4 4) (list.extractLsb' 0 4)

/-- A word with a 24-bit field below the four bits `top`. -/
def enc24 (c : BitVec 4) (top : BitVec 4) (v : BitVec 24) : Word :=
  (ArmFields.mk c (top ++ v.extractLsb' 20 4) (v.extractLsb' 16 4) (v.extractLsb' 12 4) (v.extractLsb' 8 4)
    (v.extractLsb' 4 4) (v.extractLsb' 0 4)).toWord

/-- A halfword with the 5-bit top `t` and its other fields. -/
def thumbHalf (t : BitVec 5) (u : BitVec 3) (v : BitVec 2) (s d : BitVec 3) : Half := (ThumbFields.mk t u v s d).toHalf

/-- A halfword of the shape `t iiiii sss ddd`. -/
def encT5 (t : BitVec 5) (imm5 : BitVec 5) (s d : LoReg) : Half :=
  thumbHalf t (imm5.extractLsb' 2 3) (imm5.extractLsb' 0 2) s.toBits d.toBits

/-- A halfword of the shape `t oo xxx sss ddd`: `top2` is bits 10:9 and `x` bits 8:6. -/
def encT3 (t : BitVec 5) (top2 : BitVec 2) (x : BitVec 3) (s d : LoReg) : Half :=
  thumbHalf t (top2 ++ x.extractLsb' 2 1) (x.extractLsb' 0 2) s.toBits d.toBits

/-- A halfword of the shape `t uuu iiiiiiii`. -/
def encT8 (t : BitVec 5) (u : BitVec 3) (imm8 : BitVec 8) : Half :=
  thumbHalf t u (imm8.extractLsb' 6 2) (imm8.extractLsb' 3 3) (imm8.extractLsb' 0 3)

/-- A halfword of Thumb format 4: `0100 00oo ooss sddd`. -/
def encTAlu (op : BitVec 4) (s d : LoReg) : Half :=
  thumbHalf 0b01000#5 (0#1 ++ op.extractLsb' 2 2) (op.extractLsb' 0 2) s.toBits d.toBits

/-- A halfword of Thumb format 5: `0100 01oo HhSS SDDD`. -/
def encTHi (op : BitVec 2) (d m : BitVec 4) : Half :=
  thumbHalf 0b01000#5 (1#1 ++ op) (d.extractLsb' 3 1 ++ m.extractLsb' 3 1) (m.extractLsb' 0 3) (d.extractLsb' 0 3)

/-- A halfword of the shape `t iiiiiiiiiii`. -/
def encT11 (t : BitVec 5) (v : BitVec 11) : Half :=
  thumbHalf t (v.extractLsb' 8 3) (v.extractLsb' 6 2) (v.extractLsb' 3 3) (v.extractLsb' 0 3)

/-- A Thumb halfword as a slot word, zero-extended (10_state.md R34). -/
def half (h : Half) : Word := h.setWidth 32

/-- The word of an instruction, with every ignored field at its should-be value; a Thumb halfword stands in bits
15:0. -/
def encode : Instr → Word
  | .andShiftImm c s rn rd amount ty rm => encDpShiftImm c 0#4 s rn.toBits rd.toBits amount ty rm
  | .andShiftReg c s rn rd rs ty rm => encDpShiftReg c 0#4 s rn.toBits rd.toBits rs ty rm
  | .andImm c s rn rd rot imm8 => encDpImm c 0#4 s rn.toBits rd.toBits rot imm8
  | .eorShiftImm c s rn rd amount ty rm => encDpShiftImm c 1#4 s rn.toBits rd.toBits amount ty rm
  | .eorShiftReg c s rn rd rs ty rm => encDpShiftReg c 1#4 s rn.toBits rd.toBits rs ty rm
  | .eorImm c s rn rd rot imm8 => encDpImm c 1#4 s rn.toBits rd.toBits rot imm8
  | .subShiftImm c s rn rd amount ty rm => encDpShiftImm c 2#4 s rn.toBits rd.toBits amount ty rm
  | .subShiftReg c s rn rd rs ty rm => encDpShiftReg c 2#4 s rn.toBits rd.toBits rs ty rm
  | .subImm c s rn rd rot imm8 => encDpImm c 2#4 s rn.toBits rd.toBits rot imm8
  | .rsbShiftImm c s rn rd amount ty rm => encDpShiftImm c 3#4 s rn.toBits rd.toBits amount ty rm
  | .rsbShiftReg c s rn rd rs ty rm => encDpShiftReg c 3#4 s rn.toBits rd.toBits rs ty rm
  | .rsbImm c s rn rd rot imm8 => encDpImm c 3#4 s rn.toBits rd.toBits rot imm8
  | .addShiftImm c s rn rd amount ty rm => encDpShiftImm c 4#4 s rn.toBits rd.toBits amount ty rm
  | .addShiftReg c s rn rd rs ty rm => encDpShiftReg c 4#4 s rn.toBits rd.toBits rs ty rm
  | .addImm c s rn rd rot imm8 => encDpImm c 4#4 s rn.toBits rd.toBits rot imm8
  | .adcShiftImm c s rn rd amount ty rm => encDpShiftImm c 5#4 s rn.toBits rd.toBits amount ty rm
  | .adcShiftReg c s rn rd rs ty rm => encDpShiftReg c 5#4 s rn.toBits rd.toBits rs ty rm
  | .adcImm c s rn rd rot imm8 => encDpImm c 5#4 s rn.toBits rd.toBits rot imm8
  | .sbcShiftImm c s rn rd amount ty rm => encDpShiftImm c 6#4 s rn.toBits rd.toBits amount ty rm
  | .sbcShiftReg c s rn rd rs ty rm => encDpShiftReg c 6#4 s rn.toBits rd.toBits rs ty rm
  | .sbcImm c s rn rd rot imm8 => encDpImm c 6#4 s rn.toBits rd.toBits rot imm8
  | .rscShiftImm c s rn rd amount ty rm => encDpShiftImm c 7#4 s rn.toBits rd.toBits amount ty rm
  | .rscShiftReg c s rn rd rs ty rm => encDpShiftReg c 7#4 s rn.toBits rd.toBits rs ty rm
  | .rscImm c s rn rd rot imm8 => encDpImm c 7#4 s rn.toBits rd.toBits rot imm8
  | .tstShiftImm c rn amount ty rm => encDpShiftImm c 8#4 true rn.toBits 0#4 amount ty rm
  | .tstShiftReg c rn rs ty rm => encDpShiftReg c 8#4 true rn.toBits 0#4 rs ty rm
  | .tstImm c rn rot imm8 => encDpImm c 8#4 true rn.toBits 0#4 rot imm8
  | .teqShiftImm c rn amount ty rm => encDpShiftImm c 9#4 true rn.toBits 0#4 amount ty rm
  | .teqShiftReg c rn rs ty rm => encDpShiftReg c 9#4 true rn.toBits 0#4 rs ty rm
  | .teqImm c rn rot imm8 => encDpImm c 9#4 true rn.toBits 0#4 rot imm8
  | .cmpShiftImm c rn amount ty rm => encDpShiftImm c 10#4 true rn.toBits 0#4 amount ty rm
  | .cmpShiftReg c rn rs ty rm => encDpShiftReg c 10#4 true rn.toBits 0#4 rs ty rm
  | .cmpImm c rn rot imm8 => encDpImm c 10#4 true rn.toBits 0#4 rot imm8
  | .cmnShiftImm c rn amount ty rm => encDpShiftImm c 11#4 true rn.toBits 0#4 amount ty rm
  | .cmnShiftReg c rn rs ty rm => encDpShiftReg c 11#4 true rn.toBits 0#4 rs ty rm
  | .cmnImm c rn rot imm8 => encDpImm c 11#4 true rn.toBits 0#4 rot imm8
  | .orrShiftImm c s rn rd amount ty rm => encDpShiftImm c 12#4 s rn.toBits rd.toBits amount ty rm
  | .orrShiftReg c s rn rd rs ty rm => encDpShiftReg c 12#4 s rn.toBits rd.toBits rs ty rm
  | .orrImm c s rn rd rot imm8 => encDpImm c 12#4 s rn.toBits rd.toBits rot imm8
  | .movShiftImm c s rd amount ty rm => encDpShiftImm c 13#4 s 0#4 rd.toBits amount ty rm
  | .movShiftReg c s rd rs ty rm => encDpShiftReg c 13#4 s 0#4 rd.toBits rs ty rm
  | .movImm c s rd rot imm8 => encDpImm c 13#4 s 0#4 rd.toBits rot imm8
  | .bicShiftImm c s rn rd amount ty rm => encDpShiftImm c 14#4 s rn.toBits rd.toBits amount ty rm
  | .bicShiftReg c s rn rd rs ty rm => encDpShiftReg c 14#4 s rn.toBits rd.toBits rs ty rm
  | .bicImm c s rn rd rot imm8 => encDpImm c 14#4 s rn.toBits rd.toBits rot imm8
  | .mvnShiftImm c s rd amount ty rm => encDpShiftImm c 15#4 s 0#4 rd.toBits amount ty rm
  | .mvnShiftReg c s rd rs ty rm => encDpShiftReg c 15#4 s 0#4 rd.toBits rs ty rm
  | .mvnImm c s rd rot imm8 => encDpImm c 15#4 s 0#4 rd.toBits rot imm8
  | .mrs c spsr rd => armWord c (0b00010#5 ++ bit spsr ++ 0b00#2) 0xF#4 rd.toBits 0#4 0#4 0#4
  | .msrReg c spsr fields rm => armWord c (0b00010#5 ++ bit spsr ++ 0b10#2) fields 0xF#4 0#4 0#4 rm.toBits
  | .msrImm c spsr fields rot imm8 => armWord c (0b00110#5 ++ bit spsr ++ 0b10#2) fields 0xF#4 rot (imm8.extractLsb' 4 4) (imm8.extractLsb' 0 4)
  | .mul c s rd rs rm => armWord c (0b0000000#7 ++ bit s) rd.toBits 0#4 rs.toBits 9#4 rm.toBits
  | .mla c s rd rn rs rm => armWord c (0b0000001#7 ++ bit s) rd.toBits rn.toBits rs.toBits 9#4 rm.toBits
  | .umull c s rdHi rdLo rs rm => armWord c (0b0000100#7 ++ bit s) rdHi.toBits rdLo.toBits rs.toBits 9#4 rm.toBits
  | .umlal c s rdHi rdLo rs rm => armWord c (0b0000101#7 ++ bit s) rdHi.toBits rdLo.toBits rs.toBits 9#4 rm.toBits
  | .smull c s rdHi rdLo rs rm => armWord c (0b0000110#7 ++ bit s) rdHi.toBits rdLo.toBits rs.toBits 9#4 rm.toBits
  | .smlal c s rdHi rdLo rs rm => armWord c (0b0000111#7 ++ bit s) rdHi.toBits rdLo.toBits rs.toBits 9#4 rm.toBits
  | .clz c rd rm => armWord c 0x16#8 0xF#4 rd.toBits 0xF#4 1#4 rm.toBits
  | .qadd c rn rd rm => armWord c 0b00010000#8 rn.toBits rd.toBits 0#4 5#4 rm.toBits
  | .qsub c rn rd rm => armWord c 0b00010010#8 rn.toBits rd.toBits 0#4 5#4 rm.toBits
  | .qdadd c rn rd rm => armWord c 0b00010100#8 rn.toBits rd.toBits 0#4 5#4 rm.toBits
  | .qdsub c rn rd rm => armWord c 0b00010110#8 rn.toBits rd.toBits 0#4 5#4 rm.toBits
  | .smlaXY c x y rd rn rs rm => armWord c 0x10#8 rd.toBits rn.toBits rs.toBits (1#1 ++ bit y ++ bit x ++ 0#1) rm.toBits
  | .smlawY c y rd rn rs rm => armWord c 0x12#8 rd.toBits rn.toBits rs.toBits (1#1 ++ bit y ++ 0b00#2) rm.toBits
  | .smulwY c y rd rs rm => armWord c 0x12#8 rd.toBits 0#4 rs.toBits (1#1 ++ bit y ++ 0b10#2) rm.toBits
  | .smlalXY c x y rdHi rdLo rs rm => armWord c 0x14#8 rdHi.toBits rdLo.toBits rs.toBits (1#1 ++ bit y ++ bit x ++ 0#1) rm.toBits
  | .smulXY c x y rd rs rm => armWord c 0x16#8 rd.toBits 0#4 rs.toBits (1#1 ++ bit y ++ bit x ++ 0#1) rm.toBits
  | .ldrImm c mode up rn rd imm12 => encSdtImm c mode.toBits up false true rn rd imm12
  | .ldrReg c mode up rn rd amount ty rm => encSdtReg c mode.toBits up false true rn rd amount ty rm
  | .strImm c mode up rn rd imm12 => encSdtImm c mode.toBits up false false rn rd imm12
  | .strReg c mode up rn rd amount ty rm => encSdtReg c mode.toBits up false false rn rd amount ty rm
  | .ldrbImm c mode up rn rd imm12 => encSdtImm c mode.toBits up true true rn rd imm12
  | .ldrbReg c mode up rn rd amount ty rm => encSdtReg c mode.toBits up true true rn rd amount ty rm
  | .strbImm c mode up rn rd imm12 => encSdtImm c mode.toBits up true false rn rd imm12
  | .strbReg c mode up rn rd amount ty rm => encSdtReg c mode.toBits up true false rn rd amount ty rm
  | .ldrtImm c up rn rd imm12 => encSdtImm c (false, true) up false true rn rd imm12
  | .ldrtReg c up rn rd amount ty rm => encSdtReg c (false, true) up false true rn rd amount ty rm
  | .strtImm c up rn rd imm12 => encSdtImm c (false, true) up false false rn rd imm12
  | .strtReg c up rn rd amount ty rm => encSdtReg c (false, true) up false false rn rd amount ty rm
  | .ldrbtImm c up rn rd imm12 => encSdtImm c (false, true) up true true rn rd imm12
  | .ldrbtReg c up rn rd amount ty rm => encSdtReg c (false, true) up true true rn rd amount ty rm
  | .strbtImm c up rn rd imm12 => encSdtImm c (false, true) up true false rn rd imm12
  | .strbtReg c up rn rd amount ty rm => encSdtReg c (false, true) up true false rn rd amount ty rm
  | .ldrh c mode up rn rd off => encHdt c mode up true 1#2 rn rd off
  | .strh c mode up rn rd off => encHdt c mode up false 1#2 rn rd off
  | .ldrsb c mode up rn rd off => encHdt c mode up true 2#2 rn rd off
  | .ldrsh c mode up rn rd off => encHdt c mode up true 3#2 rn rd off
  | .ldrd c mode up rn rd off => encHdt c mode up false 2#2 rn rd off
  | .strd c mode up rn rd off => encHdt c mode up false 3#2 rn rd off
  | .ldm c bm s w rn list => encBdt c bm s w true rn list
  | .stm c bm s w rn list => encBdt c bm s w false rn list
  | .swp c rn rd rm => armWord c 0x10#8 rn.toBits rd.toBits 0#4 9#4 rm.toBits
  | .swpb c rn rd rm => armWord c 0x14#8 rn.toBits rd.toBits 0#4 9#4 rm.toBits
  | .pld regOff up rn off => armWord .nv (0b01#2 ++ bit regOff ++ 1#1 ++ bit up ++ 0b101#3) rn.toBits 0xF#4 (off.extractLsb' 8 4) (off.extractLsb' 4 4) (off.extractLsb' 0 4)
  | .b c off => enc24 c.toBits 0b1010#4 off
  | .bl c off => enc24 c.toBits 0b1011#4 off
  | .bx c rm => armWord c 0x12#8 0xF#4 0xF#4 0xF#4 1#4 rm.toBits
  | .blxImm h off => enc24 0xF#4 (0b101#3 ++ bit h) off
  | .blxReg c rm => armWord c 0x12#8 0xF#4 0xF#4 0xF#4 3#4 rm.toBits
  | .swi c comment => enc24 c.toBits 0b1111#4 comment
  | .bkpt imm16 => armWord .al 0x12#8 (imm16.extractLsb' 12 4) (imm16.extractLsb' 8 4) (imm16.extractLsb' 4 4) 7#4 (imm16.extractLsb' 0 4)
  | .mcr c op1 crn rd op2 crm => armWord c (0b1110#4 ++ op1 ++ 0#1) crn rd.toBits 0xF#4 (op2 ++ 1#1) crm
  | .mrc c op1 crn rd op2 crm => armWord c (0b1110#4 ++ op1 ++ 1#1) crn rd.toBits 0xF#4 (op2 ++ 1#1) crm
  | .tLslImm imm5 rs rd => half (encT5 0b00000#5 imm5 rs rd)
  | .tLsrImm imm5 rs rd => half (encT5 0b00001#5 imm5 rs rd)
  | .tAsrImm imm5 rs rd => half (encT5 0b00010#5 imm5 rs rd)
  | .tAddReg rn rs rd => half (encT3 0b00011#5 0#2 rn.toBits rs rd)
  | .tSubReg rn rs rd => half (encT3 0b00011#5 1#2 rn.toBits rs rd)
  | .tAddImm3 imm3 rs rd => half (encT3 0b00011#5 2#2 imm3 rs rd)
  | .tSubImm3 imm3 rs rd => half (encT3 0b00011#5 3#2 imm3 rs rd)
  | .tMovImm8 rd imm8 => half (encT8 0b00100#5 rd.toBits imm8)
  | .tCmpImm8 rd imm8 => half (encT8 0b00101#5 rd.toBits imm8)
  | .tAddImm8 rd imm8 => half (encT8 0b00110#5 rd.toBits imm8)
  | .tSubImm8 rd imm8 => half (encT8 0b00111#5 rd.toBits imm8)
  | .tAndAlu rs rd => half (encTAlu 0#4 rs rd)
  | .tEorAlu rs rd => half (encTAlu 1#4 rs rd)
  | .tLslAlu rs rd => half (encTAlu 2#4 rs rd)
  | .tLsrAlu rs rd => half (encTAlu 3#4 rs rd)
  | .tAsrAlu rs rd => half (encTAlu 4#4 rs rd)
  | .tAdcAlu rs rd => half (encTAlu 5#4 rs rd)
  | .tSbcAlu rs rd => half (encTAlu 6#4 rs rd)
  | .tRorAlu rs rd => half (encTAlu 7#4 rs rd)
  | .tTstAlu rs rd => half (encTAlu 8#4 rs rd)
  | .tNegAlu rs rd => half (encTAlu 9#4 rs rd)
  | .tCmpAlu rs rd => half (encTAlu 10#4 rs rd)
  | .tCmnAlu rs rd => half (encTAlu 11#4 rs rd)
  | .tOrrAlu rs rd => half (encTAlu 12#4 rs rd)
  | .tMulAlu rs rd => half (encTAlu 13#4 rs rd)
  | .tBicAlu rs rd => half (encTAlu 14#4 rs rd)
  | .tMvnAlu rs rd => half (encTAlu 15#4 rs rd)
  | .tAddHi rd rm => half (encTHi 0#2 rd.toBits rm.toBits)
  | .tCmpHi rd rm => half (encTHi 1#2 rd.toBits rm.toBits)
  | .tMovHi rd rm => half (encTHi 2#2 rd.toBits rm.toBits)
  | .tBx rm => half (encTHi 3#2 0#4 rm.toBits)
  | .tBlxReg rm => half (encTHi 3#2 8#4 rm.toBits)
  | .tLdrPc rd imm8 => half (encT8 0b01001#5 rd.toBits imm8)
  | .tStrReg ro rb rd => half (encT3 0b01010#5 0#2 ro.toBits rb rd)
  | .tStrbReg ro rb rd => half (encT3 0b01010#5 2#2 ro.toBits rb rd)
  | .tLdrReg ro rb rd => half (encT3 0b01011#5 0#2 ro.toBits rb rd)
  | .tLdrbReg ro rb rd => half (encT3 0b01011#5 2#2 ro.toBits rb rd)
  | .tStrhReg ro rb rd => half (encT3 0b01010#5 1#2 ro.toBits rb rd)
  | .tLdrsbReg ro rb rd => half (encT3 0b01010#5 3#2 ro.toBits rb rd)
  | .tLdrhReg ro rb rd => half (encT3 0b01011#5 1#2 ro.toBits rb rd)
  | .tLdrshReg ro rb rd => half (encT3 0b01011#5 3#2 ro.toBits rb rd)
  | .tStrImm imm5 rb rd => half (encT5 0b01100#5 imm5 rb rd)
  | .tLdrImm imm5 rb rd => half (encT5 0b01101#5 imm5 rb rd)
  | .tStrbImm imm5 rb rd => half (encT5 0b01110#5 imm5 rb rd)
  | .tLdrbImm imm5 rb rd => half (encT5 0b01111#5 imm5 rb rd)
  | .tStrhImm imm5 rb rd => half (encT5 0b10000#5 imm5 rb rd)
  | .tLdrhImm imm5 rb rd => half (encT5 0b10001#5 imm5 rb rd)
  | .tStrSp rd imm8 => half (encT8 0b10010#5 rd.toBits imm8)
  | .tLdrSp rd imm8 => half (encT8 0b10011#5 rd.toBits imm8)
  | .tAddPc rd imm8 => half (encT8 0b10100#5 rd.toBits imm8)
  | .tAddSp rd imm8 => half (encT8 0b10101#5 rd.toBits imm8)
  | .tIncSp imm7 => half (encT8 0b10110#5 0#3 (0#1 ++ imm7))
  | .tDecSp imm7 => half (encT8 0b10110#5 0#3 (1#1 ++ imm7))
  | .tPush lr list => half (encT8 0b10110#5 (0b10#2 ++ bit lr) list)
  | .tPop pc list => half (encT8 0b10111#5 (0b10#2 ++ bit pc) list)
  | .tStmia rb list => half (encT8 0b11000#5 rb.toBits list)
  | .tLdmia rb list => half (encT8 0b11001#5 rb.toBits list)
  | .tBCond c off => half (encT8 (0b1101#4 ++ c.toBits.extractLsb' 3 1) (c.toBits.extractLsb' 0 3) off)
  | .tSwi n => half (encT8 0b11011#5 7#3 n)
  | .tB off => half (encT11 0b11100#5 off)
  | .tBlPrefix off => half (encT11 0b11110#5 off)
  | .tBlSuffix off => half (encT11 0b11111#5 off)
  | .tBlxSuffix off => half (encT11 0b11101#5 (off ++ 0#1))

/-- The bytes of a word, lowest address first (20_memory.md R62). -/
def bytesOfWord (w : Word) : List Byte :=
  [w.extractLsb' 0 8, w.extractLsb' 8 8, w.extractLsb' 16 8, w.extractLsb' 24 8]

/-- The bytes of an instruction as they stand in memory. -/
def encodeBytes (i : Instr) : List Byte := (bytesOfWord (encode i)).take (if i.isThumb then 2 else 4)

/-- The instruction the decoder of FAST reads from the bits `w` of a table row of `nbits` bits: a Thumb halfword
for up to 16 bits, an ARM word above. -/
def decodeTableWord (nbits w : Nat) : Option Instr :=
  let thumb := decide (nbits ≤ 16)
  match decode .fast thumb ((bytesOfWord (BitVec.ofNat 32 w)).take (if thumb then 2 else 4)) with
  | .ok (i, _) => some i
  | .error _ => none

end Sys2Proof
end

