-- ==== Sys2Proof/Machine/Psr.lean ====
section
/-! DEFINITION. The status registers as words: the field layout of 10_state.md R27, the masks, and the field
accessors. -/

namespace Sys2Proof.Machine

/-- `PSR_MASK(k)` (10_state.md R27). -/
def psrMask : CoreId → Word
  | .fast => 0xF80000FF#32
  | .slow => 0xF00000FF#32

/-- `LINEMASK(k)` (00_scope.md R10). -/
def lineMask : CoreId → Word
  | .fast => 0x001FFFFF#32
  | .slow => 0x00FFFFFF#32

/-- Bit `i` of `w` replaced by `b`. -/
def putBit (w : Word) (i : Nat) (b : Bool) : Word :=
  (w &&& ~~~(1#32 <<< i)) ||| (if b then 1#32 <<< i else 0#32)

/-- The field of `w` selected by the ones of `mask` replaced by that of `v`. -/
def putMasked (w mask v : Word) : Word :=
  (w &&& ~~~mask) ||| (v &&& mask)

/-- The flags and control bits by their names in 10_state.md R27. -/
def psrN (w : Word) : Bool := w.getLsbD 31
/-- The Z flag. -/
def psrZ (w : Word) : Bool := w.getLsbD 30
/-- The C flag. -/
def psrC (w : Word) : Bool := w.getLsbD 29
/-- The V flag. -/
def psrV (w : Word) : Bool := w.getLsbD 28
/-- The Q flag (FAST). -/
def psrQ (w : Word) : Bool := w.getLsbD 27
/-- The IRQ mask bit. -/
def psrI (w : Word) : Bool := w.getLsbD 7
/-- The FIQ mask bit. -/
def psrF (w : Word) : Bool := w.getLsbD 6
/-- The instruction-set state bit: 1 is Thumb. -/
def psrT (w : Word) : Bool := w.getLsbD 5
/-- The mode field. -/
def psrM (w : Word) : BitVec 5 := w.extractLsb' 0 5

/-- The status word with another T bit. -/
def psrSetT (w : Word) (b : Bool) : Word := putBit w 5 b
/-- The status word with another I bit. -/
def psrSetI (w : Word) (b : Bool) : Word := putBit w 7 b
/-- The status word with another F bit. -/
def psrSetF (w : Word) (b : Bool) : Word := putBit w 6 b
/-- The status word with another Q bit. -/
def psrSetQ (w : Word) (b : Bool) : Word := putBit w 27 b
/-- The status word with another C flag. -/
def psrSetC (w : Word) (b : Bool) : Word := putBit w 29 b
/-- The status word with another V flag. -/
def psrSetV (w : Word) (b : Bool) : Word := putBit w 28 b
/-- The status word with other N and Z flags. -/
def psrSetNZ (w : Word) (n z : Bool) : Word := putBit (putBit w 31 n) 30 z
/-- The status word with another mode. -/
def psrSetMode (w : Word) (m : Mode) : Word := putMasked w 0x1F#32 (m.bits.setWidth 32)

/-- The mode a status word names, if its M field is legal (10_state.md R28, R29). -/
def psrMode? (w : Word) : Option Mode := Mode.ofBits? (psrM w)

/-- Whether the M field of a status word is one of the seven legal values (10_state.md R29). -/
def psrLegal (w : Word) : Bool := (psrMode? w).isSome

end Sys2Proof.Machine
end

