-- ==== Sys2Proof/Machine/Flags.lean ====
section
/-! DEFINITION. The flag computations and the condition check of 40_alu_shifter.md R126 to R129, over the status
word.  A carry-out is `some b`, or `none` for the sentinel UNAFFECTED (R120). -/

namespace Sys2Proof.Machine

/-- `update_condition_logical(result, co)` (40_alu_shifter.md R126). -/
def updateLogical (cpsr res : Word) (co : Option Bool) : Word :=
  let p := psrSetNZ cpsr (res.getLsbD 31) (res == 0#32)
  match co with
  | some b => psrSetC p b
  | none => p

/-- The overflow flag of an addition, from the signs (40_alu_shifter.md R127, R129). -/
def addOverflow (a b res : Word) : Bool := a.getLsbD 31 == b.getLsbD 31 && res.getLsbD 31 != a.getLsbD 31

/-- The overflow flag of a subtraction, from the signs (40_alu_shifter.md R127, R129). -/
def subOverflow (a b res : Word) : Bool := a.getLsbD 31 != b.getLsbD 31 && res.getLsbD 31 == b.getLsbD 31

/-- All four flags written at once. -/
def psrSetNZCV (cpsr : Word) (n z c v : Bool) : Word := psrSetV (psrSetC (psrSetNZ cpsr n z) c) v

/-- `update_condition_arithmetic(a, b, result, isAddition)` (40_alu_shifter.md R127). -/
def updateArith (cpsr a b res : Word) (isAdd : Bool) : Word :=
  if isAdd then
    psrSetNZCV cpsr (res.getLsbD 31) (res == 0#32) (decide (b.toNat > 0xFFFFFFFF - a.toNat)) (addOverflow a b res)
  else
    psrSetNZCV cpsr (res.getLsbD 31) (res == 0#32) (decide (b.toNat ≤ a.toNat)) (subOverflow a b res)

/-- The result of `add_with_carry(a, b, cin)` (40_alu_shifter.md R129). -/
def addWithCarry (a b : Word) (cin : Bool) : Word := BitVec.ofNat 32 (a.toNat + b.toNat + cin.toNat)

/-- The flags of `add_with_carry(a, b, cin)` (40_alu_shifter.md R129). -/
def addCarryFlags (cpsr a b : Word) (cin : Bool) : Word :=
  let res := addWithCarry a b cin
  psrSetNZCV cpsr (res.getLsbD 31) (res == 0#32) (decide (a.toNat + b.toNat + cin.toNat ≥ 2 ^ 32)) (addOverflow a b res)

/-- The result of `sub_with_carry(a, b, cin)`: `a - b - (1 - cin)` modulo 2^32 (40_alu_shifter.md R129). -/
def subWithCarry (a b : Word) (cin : Bool) : Word :=
  BitVec.ofInt 32 ((a.toNat : Int) - b.toNat - (1 - cin.toNat))

/-- The flags of `sub_with_carry(a, b, cin)` (40_alu_shifter.md R129). -/
def subCarryFlags (cpsr a b : Word) (cin : Bool) : Word :=
  let res := subWithCarry a b cin
  psrSetNZCV cpsr (res.getLsbD 31) (res == 0#32) (decide (a.toNat ≥ b.toNat + (1 - cin.toNat))) (subOverflow a b res)

/-- `check_condition` (40_alu_shifter.md R128); the reserved encoding never passes. -/
def checkCondition (c : Cond) (cpsr : Word) : Bool :=
  match c with
  | .eq => psrZ cpsr
  | .ne => !psrZ cpsr
  | .cs => psrC cpsr
  | .cc => !psrC cpsr
  | .mi => psrN cpsr
  | .pl => !psrN cpsr
  | .vs => psrV cpsr
  | .vc => !psrV cpsr
  | .hi => psrC cpsr && !psrZ cpsr
  | .ls => !psrC cpsr || psrZ cpsr
  | .ge => psrN cpsr == psrV cpsr
  | .lt => psrN cpsr != psrV cpsr
  | .gt => !psrZ cpsr && psrN cpsr == psrV cpsr
  | .le => psrZ cpsr || psrN cpsr != psrV cpsr
  | .al => true
  | .nv => false

end Sys2Proof.Machine
end

