-- ==== Sys2Proof/Config.lean ====
section
/-! DEFINITION. What an implementation fixes: the parameters of 00_scope.md R10 as plain data, with the values
or defaults of that table, and the two collaborators whose answers the spec leaves open, as opaque functions. -/

namespace Sys2Proof.Machine

/-- One value per core. -/
structure PerCore (α : Type) where
  fast : α
  slow : α
  deriving DecidableEq, Repr, Inhabited

/-- The value of core `k`. -/
def PerCore.get {α : Type} (p : PerCore α) : CoreId → α
  | .fast => p.fast
  | .slow => p.slow

/-- Replacing the value of core `k`. -/
def PerCore.set {α : Type} (p : PerCore α) (k : CoreId) (v : α) : PerCore α :=
  match k with
  | .fast => { p with fast := v }
  | .slow => { p with slow := v }

/-- The widths of a memory access (20_memory.md R60). -/
inductive Width where
  | byte | half | word
  deriving DecidableEq, Repr, Inhabited

/-- The direction of a memory access. -/
inductive Dir where
  | read | write
  deriving DecidableEq, Repr, Inhabited

/-- One access as the memory subsystem sees it: the requester of 20_memory.md R61, the operation of R60, the
address and the value moved. -/
structure Access where
  requester : CoreId
  dir : Dir
  width : Width
  addr : Word
  value : Word
  deriving DecidableEq, Repr, Inhabited

/-- What `TickCycles(k, rec)` is charged for (60_exceptions.md R378): a fill, or an executed instruction with its
tag, word, address and accesses. -/
inductive TickRec where
  | fill
  | executed (tag : Tag) (word : Word) (addr : Word) (accesses : List Access)
  deriving DecidableEq, Repr, Inhabited

/-- How a SWI is handled (00_scope.md R10 SWI_MODE). -/
inductive SwiMode where
  | hle | trap
  deriving DecidableEq, Repr, Inhabited

/-- What a flag-setting multiply leaves in C (00_scope.md R10 MUL_C_POLICY).  The parameter is OPEN
(92_eei_decisions.md D23) and UNCHANGED is its one named value; `meaningless`, a free value in C, is what 42_arm_dataproc.md
R199 says of ARMv4: DESIGN CHOICE (notes/assumptions/26.md). -/
inductive MulCPolicy where
  | unchanged | meaningless
  deriving DecidableEq, Repr, Inhabited

/-- The launcher's values of the DIRECT_BOOT profile (10_state.md R52). -/
structure BootValues where
  pc : Word
  cpsr : Word
  spUsr : Word
  spFiq : Word
  spSvc : Word
  spAbt : Word
  spIrq : Word
  spUnd : Word
  deriving DecidableEq, Repr, Inhabited

/-- RESET_PROFILE (00_scope.md R10, 10_state.md R52). -/
inductive ResetProfile where
  | architectural
  | directBoot (v : PerCore BootValues)
  deriving DecidableEq, Repr, Inhabited

/-- The parameters of 00_scope.md R10 that are values.  The three cost functions are finite tables of what a
charge exceeds 1 by; a record in no table costs 1 (DESIGN CHOICE, notes/assumptions/10.md). -/
structure Config where
  /-- VBASE(k). -/
  vbase : PerCore Word
  /-- SWI_MODE. -/
  swiMode : SwiMode
  /-- Whether a BiosService is given. -/
  biosService : Bool
  /-- Whether a Cp15 collaborator is given. -/
  cp15 : Bool
  /-- RESET_PROFILE. -/
  resetProfile : ResetProfile
  /-- INIT_GPR(k, i). -/
  initGpr : PerCore RegFile
  /-- INIT_BUDGET. -/
  initBudget : Int
  /-- STR_PC_OFFSET. -/
  strPcOffset : Word
  /-- WAIT_CLEARS_PENDING. -/
  waitClearsPending : Bool
  /-- MUL_C_POLICY. -/
  mulCPolicy : MulCPolicy
  /-- TickCycles(k, rec) - 1, where it is not 0. -/
  tickExtra : PerCore (List (TickRec × Nat))
  /-- SeqCost(k, w, addr) - 1, where it is not 0; `w` is the width W in bytes. -/
  seqExtra : PerCore (List ((Nat × Word) × Nat))
  /-- IDLE_CYCLES(k) - 1. -/
  idleExtra : PerCore Nat
  deriving DecidableEq, Repr, Inhabited

/-- The values and defaults of the table of 00_scope.md R10. -/
def Config.default : Config where
  vbase := ⟨0xFFFF0000#32, 0x00000000#32⟩
  swiMode := .hle
  biosService := false
  cp15 := false
  resetProfile := .architectural
  initGpr := ⟨{}, {}⟩
  initBudget := 0
  strPcOffset := 12#32
  waitClearsPending := true
  mulCPolicy := .unchanged
  tickExtra := ⟨[], []⟩
  seqExtra := ⟨[], []⟩
  idleExtra := ⟨0, 0⟩

/-- The address of a CP15 register as MCR and MRC name it (44_arm_branch_system.md R252). -/
structure Cp15Reg where
  op1 : BitVec 3
  crn : BitVec 4
  crm : BitVec 4
  op2 : BitVec 3
  deriving DecidableEq, Repr, Inhabited

/-- C after a flag-setting multiply under a MUL_C_POLICY that calls it meaningless, on a core with these general registers
and this cpsr before it: a FREE VALUE (notes/assumptions/26.md). -/
opaque Config.mulCarry : CoreId → RegFile → Word → Bool

/-- One request made to the Cp15 collaborator (44_arm_branch_system.md R256). -/
inductive Cp15Event where
  | read (reg : Cp15Reg)
  | write (reg : Cp15Reg) (value : Word)
  deriving DecidableEq, Repr, Inhabited

/-- What the Cp15 collaborator, when one is given, answers to a read after the requests listed (oldest first).
44_arm_branch_system.md R256 leaves its register contents to it: a FREE VALUE (notes/assumptions/8.md). -/
opaque Config.cp15Answer : List Cp15Event → Cp15Reg → Word

/-- What BiosService.call(k, n) can see (60_exceptions.md R357): the general registers of the current mode and
memory; `count` tells two calls apart. -/
structure BiosCall where
  core : CoreId
  service : BitVec 8
  regs : RegMap Word
  mem : List Host.Cell
  count : Nat
  deriving DecidableEq, Repr

/-- One thing a BIOS service does through the access it is given (60_exceptions.md R357). -/
inductive BiosAction where
  | setReg (i : Reg) (v : Word)
  | read (addr : Word) (w : Width)
  | write (addr : Word) (w : Width) (v : Word)
  deriving DecidableEq, Repr, Inhabited

/-- What BiosService, when one is given, does on a call, in order.  60_exceptions.md R357 defines no service: a
FREE VALUE (notes/assumptions/9.md). -/
opaque Config.biosActions : BiosCall → List BiosAction

end Sys2Proof.Machine
end

