-- ==== Sys2Proof/Machine/State.lean ====
section
/-! DEFINITION. The state of the machine: everything 10_state.md gives a core, the scheduler and the ports, the
memory, and the fields of the model's own that INVENTORY.md names; the reasons a step can stop; and the state
after reset (10_state.md R52, R53; 70_reset_and_hazards.md R400, R401). -/

namespace Sys2Proof.Machine

/-- One pipeline slot (10_state.md R34).  `rphys` holds the physical register that stage records for each staged
register (41_pipeline.md R153). -/
structure Slot where
  word : Word
  tag : Tag
  rmask : BitVec 16
  raddr : RegMap Word
  rval : RegMap Word
  rphys : RegMap PhysReg
  deriving DecidableEq, Repr

/-- The cleared scratch list of targets: each register's USR name (notes/assumptions/15.md). -/
def Slot.clearPhys : RegMap PhysReg := RegMap.ofFn fun i => phys i .usr

/-- The slot that `flush_pipeline` leaves: tag FILLING and everything else clear (41_pipeline.md R157). -/
def Slot.empty : Slot where
  word := 0#32
  tag := .FILLING
  rmask := 0#16
  raddr := RegMap.const 0#32
  rval := RegMap.const 0#32
  rphys := Slot.clearPhys

/-- The four values of idle_state (10_state.md R38), encoded 0 to 3 in this order. -/
inductive IdleState where
  | running | halted | waitLoop | waitInterrupt
  deriving DecidableEq, Repr, Inhabited

/-- The reasons of a fatal stop (10_state.md R44, 60_exceptions.md R358).  No instruction raises `unpredictable`
(30_encoding.md R103). -/
inductive StopReason where
  | unrecognized | illegalMode | unpredictable | noService
  deriving DecidableEq, Repr, Inhabited

/-- The record `(reason, info)` of `diag` (10_state.md R44); `info` is the pair `(value, addr)` of
60_exceptions.md R358. -/
structure Diag where
  reason : StopReason
  value : Word
  addr : Word
  deriving DecidableEq, Repr, Inhabited

/-- The state of one core (10_state.md R20). -/
structure CoreState where
  /-- The 31 general registers (R21); `r15` is the program counter (R50). -/
  regs : RegFile
  /-- The live status register (R27). -/
  cpsr : Word
  /-- The five saved-status registers (R30). -/
  spsrFiq : Word
  spsrSvc : Word
  spsrAbt : Word
  spsrIrq : Word
  spsrUnd : Word
  /-- The pipeline slots 0 to 2 (R34) and the write pointer (R35, R36). -/
  slot0 : Slot
  slot1 : Slot
  slot2 : Slot
  ptr : Fin 3
  /-- The flush request (R35). -/
  needsFlush : Bool
  /-- Cleared by a stop (R37). -/
  running : Bool
  /-- R38. -/
  idleState : IdleState
  /-- The wait-by-loop counter (R39). -/
  waitCount : Word
  /-- The latched selector of a wait for interrupt (R40). -/
  waitAnySel : Word
  /-- The per-tick cycle counter (R41). -/
  cycles : Nat
  /-- The debugger's diagnostic pair (R43). -/
  dbgTag : Tag
  dbgOperand : Word
  /-- The record of a stop (R44). -/
  diag : Option Diag
  deriving DecidableEq, Repr

/-- What one peripheral pulse does to the memory subsystem (60_exceptions.md R353): it sets bits of IF and writes
bytes. -/
structure Pulse where
  setIF : Word
  writes : List (Word × Byte)
  deriving DecidableEq, Repr, Inhabited

/-- The ports of one core that the memory subsystem owns (10_state.md R47, R48), and the queue of what the coming
pulses of its peripherals do (the model's own: notes/assumptions/6.md). -/
structure Ports where
  ie : Word
  iflag : Word
  ieSaved : Word
  ifSaved : Word
  ime : Word
  pulses : List Pulse
  deriving DecidableEq, Repr, Inhabited

/-- The machine: two cores, the shared scheduler state (10_state.md R45), the ports, the memory. -/
structure State where
  /-- The parameters of 00_scope.md R10, constant while the machine runs (notes/assumptions/1.md). -/
  cfg : Config
  cores : PerCore CoreState
  ports : PerCore Ports
  /-- Memory: the bytes that differ from 0, by address, addresses strictly rising (notes/assumptions/2.md). -/
  mem : List Host.Cell
  /-- The accesses of the current tick, oldest first (the model's own: notes/assumptions/7.md). -/
  traffic : List Access
  /-- What a given Cp15 has been asked, oldest first (the model's own: notes/assumptions/8.md). -/
  cp15Log : List Cp15Event
  /-- How many calls a given BiosService has served (the model's own: notes/assumptions/9.md). -/
  biosCalls : Nat
  /-- In FAST cycles (10_state.md R46). -/
  budget : Int
  myTurn : PerCore Bool
  busOwner : CoreId
  sessionHalted : Bool
  debugHalted : Bool
  bpResume : Bool
  /-- BREAKPOINTS (60_exceptions.md R355). -/
  breakpoints : List Word
  deriving DecidableEq, Repr

/-- The reasons a step faults: there are none.  No access can fail (20_memory.md R69), no abort and no
undefined-instruction exception exists (60_exceptions.md R392), and a fatal stop is a next state with `running`
cleared (60_exceptions.md R358).  Safe: nothing raises it. -/
inductive Fault where
  deriving DecidableEq, Repr

/-- The reasons a step is refused. -/
inductive Refusal where
  /-- An instruction whose meaning is not modelled, by its mnemonic: raised by an arm of `exec` that has no
  meaning yet; no arm is such.  Safe: the machine stops where the hardware goes on. -/
  | notModelled (mnemonic : String)
  deriving DecidableEq, Repr

/-- The register file after reset (10_state.md R52). -/
def Config.resetRegs (cfg : Config) (k : CoreId) : RegFile :=
  match cfg.resetProfile with
  | .architectural => { cfg.initGpr.get k with r15 := cfg.vbase.get k }
  | .directBoot v =>
    let b := v.get k
    { cfg.initGpr.get k with
      r15 := b.pc, r13Usr := b.spUsr, r13Fiq := b.spFiq, r13Svc := b.spSvc,
      r13Abt := b.spAbt, r13Irq := b.spIrq, r13Und := b.spUnd }

/-- The status register after reset (10_state.md R52), stored under PSR_MASK(k) (R27). -/
def Config.resetCpsr (cfg : Config) (k : CoreId) : Word :=
  match cfg.resetProfile with
  | .architectural => 0x000000D3#32
  | .directBoot v => (v.get k).cpsr &&& psrMask k

/-- The state of core `k` after `reset(k)` (10_state.md R52). -/
def CoreState.resetValue (cfg : Config) (k : CoreId) : CoreState where
  regs := cfg.resetRegs k
  cpsr := cfg.resetCpsr k
  spsrFiq := 0#32
  spsrSvc := 0#32
  spsrAbt := 0#32
  spsrIrq := 0#32
  spsrUnd := 0#32
  slot0 := Slot.empty
  slot1 := Slot.empty
  slot2 := Slot.empty
  ptr := 0
  needsFlush := false
  running := true
  idleState := .running
  waitCount := 0#32
  waitAnySel := 0#32
  cycles := 0
  dbgTag := .FILLING
  dbgOperand := 0#32
  diag := none

/-- The ports at launch.  10_state.md R54 gives no value: 0 is a DESIGN CHOICE (notes/assumptions/4.md). -/
def Ports.launch : Ports where
  ie := 0#32
  iflag := 0#32
  ieSaved := 0#32
  ifSaved := 0#32
  ime := 0#32
  pulses := []

/-- The machine right after reset of both cores under a configuration, with the scheduler state of 10_state.md
R53, ports at launch and nothing in memory (70_reset_and_hazards.md R401, R424). -/
def State.resetWith (cfg : Config) : State where
  cfg := cfg
  cores := ⟨CoreState.resetValue cfg .fast, CoreState.resetValue cfg .slow⟩
  ports := ⟨Ports.launch, Ports.launch⟩
  mem := []
  traffic := []
  cp15Log := []
  biosCalls := 0
  budget := cfg.initBudget
  myTurn := ⟨true, false⟩
  busOwner := .fast
  sessionHalted := false
  debugHalted := false
  bpResume := false
  breakpoints := []

/-- The machine right after reset, with the values and defaults of 00_scope.md R10. -/
def State.reset : State := State.resetWith Config.default

end Sys2Proof.Machine
end

