-- ==== Sys2Proof/Machine/Ops.lean ====
section
/-! DEFINITION. The named operations over memory, registers, status registers and slots that every meaning is
written with: memory access (20_memory.md R60 to R64), register access (10_state.md R24 to R30), the writes of r15
(41_pipeline.md R158), staging and commit (R153 to R155), taking an exception (60_exceptions.md R363) and
returning from one (60_exceptions.md R375). -/

namespace Sys2Proof.Machine

/-! ## Memory -/

/-- The byte at an address; an address that is not listed reads as 0 (notes/assumptions/2.md). -/
def memByte : List Host.Cell → Nat → Byte
  | [], _ => 0#8
  | (key, v) :: rest, a => if key = a then v else memByte rest a

/-- Writing one byte, keeping the list sorted and free of zero entries. -/
def memPut : List Host.Cell → Nat → Byte → List Host.Cell
  | [], a, b => if b = 0#8 then [] else [(a, b)]
  | (key, v) :: rest, a, b =>
    if a < key then (if b = 0#8 then (key, v) :: rest else (a, b) :: (key, v) :: rest)
    else if a = key then (if b = 0#8 then rest else (a, b) :: rest)
    else (key, v) :: memPut rest a b

/-- The canonical form from address `lo` on: addresses strictly rising, below 2^32, no entry 0. -/
def Memory.wfFrom (lo : Nat) : List Host.Cell → Bool
  | [] => true
  | (key, v) :: rest => decide (lo ≤ key) && decide (key < 2 ^ 32) && decide (v ≠ 0#8) && Memory.wfFrom (key + 1) rest

/-- The canonical form of memory. -/
def Memory.wf (m : List Host.Cell) : Bool := Memory.wfFrom 0 m

/-- The bytes an access of a width covers. -/
def Width.bytes : Width → Nat
  | .byte => 1
  | .half => 2
  | .word => 4

/-- `v & ~3` (43_arm_loadstore.md R233). -/
def alignWord (a : Word) : Word := a &&& ~~~3#32

/-- `v & ~1` (43_arm_loadstore.md R233). -/
def alignHalf (a : Word) : Word := a &&& ~~~1#32

/-- The value a read of `w` bytes at `a` returns, little-endian and zero-extended (20_memory.md R62, R64). -/
def memLoad (m : List Host.Cell) (a : Word) (w : Width) : Word :=
  match w with
  | .byte => (memByte m a.toNat).setWidth 32
  | .half => (memByte m (a + 1#32).toNat ++ memByte m a.toNat).setWidth 32
  | .word =>
    memByte m (a + 3#32).toNat ++ memByte m (a + 2#32).toNat ++ memByte m (a + 1#32).toNat ++ memByte m a.toNat

/-- Memory after a write of the low bytes of `v` at `a`, little-endian (20_memory.md R62, R64). -/
def memStore (m : List Host.Cell) (a : Word) (w : Width) (v : Word) : List Host.Cell :=
  let m0 := memPut m a.toNat (v.extractLsb' 0 8)
  match w with
  | .byte => m0
  | .half => memPut m0 (a + 1#32).toNat (v.extractLsb' 8 8)
  | .word =>
    memPut (memPut (memPut m0 (a + 1#32).toNat (v.extractLsb' 8 8)) (a + 2#32).toNat (v.extractLsb' 16 8))
      (a + 3#32).toNat (v.extractLsb' 24 8)

/-! ## The core that holds the turn -/

/-- The core whose my_turn is true (60_exceptions.md R377). -/
def State.turn (s : State) : CoreId := if s.myTurn.fast then .fast else .slow

/-- The state of the core that holds the turn. -/
def State.cur (s : State) : CoreState := s.cores.get s.turn

/-- Replacing the state of the core that holds the turn. -/
def State.setCur (s : State) (c : CoreState) : State := { s with cores := s.cores.set s.turn c }

/-- Changing the state of the core that holds the turn. -/
def State.onCur (s : State) (f : CoreState → CoreState) : State := s.setCur (f s.cur)

/-- The ports of the core that holds the turn. -/
def State.curPorts (s : State) : Ports := s.ports.get s.turn

/-- Replacing the ports of the core that holds the turn. -/
def State.setPorts (s : State) (p : Ports) : State := { s with ports := s.ports.set s.turn p }

/-- `MemRead(addr, n)` by the requester of 20_memory.md R61: the value, and the machine with the access on
record. -/
def State.read (s : State) (a : Word) (w : Width) : Word × State :=
  let v := memLoad s.mem a w
  (v, { s with traffic := s.traffic ++ [⟨s.busOwner, .read, w, a, v⟩] })

/-- The low bytes of `v` that an access of a width moves, zero-extended. -/
def lowBytes (v : Word) : Width → Word
  | .byte => v &&& 0xFF#32
  | .half => v &&& 0xFFFF#32
  | .word => v

/-- `MemWrite(addr, n, v)` by the requester of 20_memory.md R61. -/
def State.write (s : State) (a : Word) (w : Width) (v : Word) : State :=
  { s with mem := memStore s.mem a w v, traffic := s.traffic ++ [⟨s.busOwner, .write, w, a, lowBytes v w⟩] }

/-! ## Registers -/

/-- The mode in force.  An illegal M field, which no step produces (10_state.md R29), selects the USR bank
(notes/assumptions/14.md). -/
def CoreState.mode (c : CoreState) : Mode := (psrMode? c.cpsr).getD .usr

/-- `get_reg(i)`, the `x[i]` of 00_scope.md R12 (10_state.md R24). -/
def CoreState.reg (c : CoreState) (i : Reg) : Word := c.regs.get (phys i c.mode)

/-- `get_reg_usr(i)`, the `xu[i]` of 00_scope.md R12 (10_state.md R24). -/
def CoreState.regUsr (c : CoreState) (i : Reg) : Word := c.regs.get (phys i .usr)

/-- The instruction width W in bytes (10_state.md R42). -/
def CoreState.widthBytes (c : CoreState) : Nat := if psrT c.cpsr then 2 else 4

/-- W as a 32-bit value. -/
def CoreState.width (c : CoreState) : Word := if psrT c.cpsr then 2#32 else 4#32

/-- A, the address of the instruction being executed: `r15 - 2*W` (41_pipeline.md R150). -/
def CoreState.instrAddr (c : CoreState) : Word := c.regs.r15 - 2#32 * c.width

/-- A target aligned to the instruction width of the state after the write (41_pipeline.md R158). -/
def CoreState.alignPc (c : CoreState) (v : Word) : Word := if psrT c.cpsr then alignHalf v else alignWord v

/-- A write of r15: the aligned target, and a flush request (41_pipeline.md R158). -/
def CoreState.writePc (c : CoreState) (v : Word) : CoreState :=
  { c with regs := { c.regs with r15 := c.alignPc v }, needsFlush := true }

/-- `set_reg(i, v)` (10_state.md R24); register 15 is a write of r15 (41_pipeline.md R158). -/
def CoreState.setReg (c : CoreState) (i : Reg) (v : Word) : CoreState :=
  if i = .r15 then c.writePc v else { c with regs := c.regs.set (phys i c.mode) v }

/-- A write of cpsr, stored under PSR_MASK(k) (10_state.md R27).  The test of R29 is the writer's. -/
def CoreState.setCpsr (c : CoreState) (k : CoreId) (v : Word) : CoreState := { c with cpsr := v &&& psrMask k }

/-- The saved-status register of a mode; USR and SYS have none and read the live cpsr (10_state.md R26). -/
def CoreState.spsrOf (c : CoreState) : Mode → Word
  | .usr => c.cpsr
  | .sys => c.cpsr
  | .fiq => c.spsrFiq
  | .svc => c.spsrSvc
  | .abt => c.spsrAbt
  | .irq => c.spsrIrq
  | .und => c.spsrUnd

/-- Writing the saved-status register of a mode under PSR_MASK(k); a no-op in USR and SYS (10_state.md R26). -/
def CoreState.setSpsrOf (c : CoreState) (k : CoreId) (m : Mode) (v : Word) : CoreState :=
  match m with
  | .usr => c
  | .sys => c
  | .fiq => { c with spsrFiq := v &&& psrMask k }
  | .svc => { c with spsrSvc := v &&& psrMask k }
  | .abt => { c with spsrAbt := v &&& psrMask k }
  | .irq => { c with spsrIrq := v &&& psrMask k }
  | .und => { c with spsrUnd := v &&& psrMask k }

/-- `get_spsr()` (10_state.md R26). -/
def CoreState.getSpsr (c : CoreState) : Word := c.spsrOf c.mode

/-- `set_spsr(v)` (10_state.md R26). -/
def CoreState.setSpsr (c : CoreState) (k : CoreId) (v : Word) : CoreState := c.setSpsrOf k c.mode v

/-- The interworking write of r15: T is bit 0 of the target, in the same step as the write
(44_arm_branch_system.md R247, 43_arm_loadstore.md R235). -/
def CoreState.branchExchange (c : CoreState) (k : CoreId) (t : Word) : CoreState :=
  (c.setCpsr k (psrSetT c.cpsr (t.getLsbD 0))).writePc t

/-! ## Outcomes of a rule -/

/-- How a rule ends: it completes, or it calls `stop` with a diagnostic (00_scope.md R14). -/
inductive Result (σ : Type) where
  | done (s : σ)
  | stop (d : Diag) (s : σ)
  deriving Repr

/-- A rule of a core: core `k`, the state the rule starts from. -/
abbrev Rule := CoreId → State → Result State

/-- A rule that touches only the executing core. -/
abbrev CoreRule := CoreId → CoreState → Result CoreState

/-- A core rule as a rule. -/
def onCore (f : CoreRule) : Rule := fun k s =>
  match f k s.cur with
  | .done c => .done (s.setCur c)
  | .stop d c => .stop d (s.setCur c)

/-- A core rule that reads the parameters, as a rule. -/
def onCoreCfg (f : Config → CoreRule) : Rule := fun k s => onCore (f s.cfg) k s

/-- `stop(reason, info)`: running is cleared and the record written (00_scope.md R14). -/
def State.stopWith (s : State) (d : Diag) : State :=
  s.onCur fun c => { c with running := false, diag := some d }

/-! ## Exceptions -/

/-- `enter_exception(k, mode, offset, lr, maskF)` (60_exceptions.md R363): the old cpsr into the new mode's spsr,
`lr` into its r14, the mode, I, T and F bits, and the vector `VBASE(k) + offset` into r15. -/
def CoreState.enterException (c : CoreState) (k : CoreId) (vbase : Word) (m : Mode) (offset lr : Word)
    (maskF : Bool) : CoreState :=
  let p := psrSetT (psrSetI (psrSetMode c.cpsr m) true) false
  let c1 := c.setCpsr k (if maskF then psrSetF p true else p)
  let c2 := c1.setSpsrOf k m c.cpsr
  let c3 := { c2 with regs := c2.regs.set (phys .r14 m) lr }
  c3.writePc (vbase + offset)

/-- The return from an exception: the current spsr into cpsr and `target` into r15, aligned to the restored state;
an illegal mode field stops the core and changes nothing (60_exceptions.md R375, 42_arm_dataproc.md R174).
The copy takes every bit of the mask of the core, Q of FAST included, as the pseudocode of R174 and of
43_arm_loadstore.md R239 writes it and 10_state.md R27 says of every write, against the sentence of R32 there that
only MSR with the f field clears Q: a return can clear Q.  DEDUCED, unsafe (notes/assumptions/23.md). -/
def CoreState.exceptionReturn (c : CoreState) (k : CoreId) (a target : Word) : Result CoreState :=
  let p := c.getSpsr
  if psrLegal p then .done ((c.setCpsr k p).writePc target) else .stop ⟨.illegalMode, p, a⟩ c

/-! ## Slots, staging and commit -/

/-- The slot at an index of the rotating buffer. -/
def CoreState.slot (c : CoreState) (i : Fin 3) : Slot :=
  match i with
  | 0 => c.slot0
  | 1 => c.slot1
  | 2 => c.slot2

/-- Replacing the slot at an index. -/
def CoreState.setSlot (c : CoreState) (i : Fin 3) (sl : Slot) : CoreState :=
  match i with
  | 0 => { c with slot0 := sl }
  | 1 => { c with slot1 := sl }
  | 2 => { c with slot2 := sl }

/-- The slot decode works on: one stage behind the pointer (41_pipeline.md R140). -/
def CoreState.decodeIdx (c : CoreState) : Fin 3 := c.ptr + 2

/-- The slot execute works on: two stages behind the pointer (41_pipeline.md R140). -/
def CoreState.execIdx (c : CoreState) : Fin 3 := c.ptr + 1

/-- The executing slot. -/
def CoreState.execSlot (c : CoreState) : Slot := c.slot c.execIdx

/-- Replacing the executing slot. -/
def CoreState.setExecSlot (c : CoreState) (sl : Slot) : CoreState := c.setSlot c.execIdx sl

/-- Recording the access address of a register (41_pipeline.md R153, 43_arm_loadstore.md R216).  Where no rule names the
address that is recorded, see notes/assumptions/25.md. -/
def CoreState.recordAddr (c : CoreState) (i : Reg) (addr : Word) : CoreState :=
  c.setExecSlot { c.execSlot with raddr := c.execSlot.raddr.set i addr }

/-- `stage(i, v)` into physical register `p`, with the access address (41_pipeline.md R153). -/
def CoreState.stage (c : CoreState) (i : Reg) (p : PhysReg) (addr v : Word) : CoreState :=
  let sl := c.execSlot
  c.setExecSlot { sl with
    rmask := sl.rmask ||| (1#16 <<< regNumber i)
    raddr := sl.raddr.set i addr
    rval := sl.rval.set i v
    rphys := sl.rphys.set i p }

/-- `access_mem`: the address list is cleared (41_pipeline.md R154). -/
def CoreState.accessMem (c : CoreState) : CoreState :=
  c.setExecSlot { c.execSlot with raddr := RegMap.const 0#32 }

/-- Whether register `i` is staged in a slot. -/
def Slot.staged (sl : Slot) (i : Reg) : Bool := sl.rmask.getLsbD (regNumber i)

/-- The commit of one staged register other than r15 (41_pipeline.md R155). -/
def commitOne (sl : Slot) (f : RegFile) (i : Reg) : RegFile :=
  if i ≠ .r15 ∧ sl.staged i = true then f.set (sl.rphys.get i) (sl.rval.get i) else f

/-- How the instruction commits a staged r15 (41_pipeline.md R155): a loaded value (43_arm_loadstore.md R235,
45_thumb.md R320), or an exception return (43_arm_loadstore.md R239). -/
inductive PcCommit where
  | load | restore
  deriving DecidableEq, Repr

/-- The commit of a loaded value into r15: FAST interworks on bit 0, SLOW keeps its state (43_arm_loadstore.md
R235, 45_thumb.md R320). -/
def CoreState.loadPc (c : CoreState) (k : CoreId) (v : Word) : CoreState :=
  match k with
  | .fast => c.branchExchange k v
  | .slow => c.writePc v

/-- The bitmap of the executing slot cleared. -/
def CoreState.clearStaged (c : CoreState) : CoreState := c.setExecSlot { c.execSlot with rmask := 0#16 }

/-- `write_reg`: the staged registers in increasing number, r15 last, then the bitmap cleared (41_pipeline.md
R155). -/
def CoreState.writeStaged (c : CoreState) (k : CoreId) (w : PcCommit) : Result CoreState :=
  let sl := c.execSlot
  let c1 := { c with regs := allRegs.foldl (commitOne sl) c.regs }
  if sl.staged .r15 then
    match w with
    | .load => .done (c1.loadPc k (sl.rval.get .r15)).clearStaged
    | .restore =>
      match c1.exceptionReturn k c.instrAddr (sl.rval.get .r15) with
      | .done c2 => .done c2.clearStaged
      | .stop d c2 => .stop d c2
  else .done c1.clearStaged

/-! ## Cycle charges -/

/-- A charge: 1, and what a table adds for the record (00_scope.md R10, notes/assumptions/10.md). -/
def costOf {α : Type} [DecidableEq α] (table : List (α × Nat)) (r : α) : Nat := 1 + (table.lookup r).getD 0

/-- Adding a charge to the per-tick cycle counter (60_exceptions.md R378). -/
def CoreState.charge (c : CoreState) (n : Nat) : CoreState := { c with cycles := c.cycles + n }

/-- `TickCycles(k, rec)` (60_exceptions.md R378). -/
def Config.tickCycles (cfg : Config) (k : CoreId) (r : TickRec) : Nat := costOf (cfg.tickExtra.get k) r

/-- `SeqCost(k, W, A)` (60_exceptions.md R378). -/
def Config.seqCost (cfg : Config) (k : CoreId) (w : Nat) (a : Word) : Nat := costOf (cfg.seqExtra.get k) (w, a)

/-- `IDLE_CYCLES(k)` (60_exceptions.md R379). -/
def Config.idleCycles (cfg : Config) (k : CoreId) : Nat := 1 + cfg.idleExtra.get k

end Sys2Proof.Machine
end

