-- ==== Sys2Proof/Machine/Execute.lean ====
section
/-! DEFINITION. What every instruction has in common: `execute` from the condition test on (41_pipeline.md R149),
with the stop of an unrecognized form (R152), the access and writeback stages (R154, R155) and the cycle charge
(60_exceptions.md R378). -/

namespace Sys2Proof.Machine

/-- The outcome of a step or an instruction. -/
abbrev Out := Host.Outcome State Fault Refusal

/-- The writeback stage on the core that holds the turn (41_pipeline.md R155). -/
def State.writeStaged (s : State) (k : CoreId) (w : PcCommit) : Result State :=
  match (s.cur.accessMem).writeStaged k w with
  | .done c => .done (s.setCur c)
  | .stop d c => .stop d (s.setCur c)

/-- `stop(UNRECOGNIZED, (word, A))` (41_pipeline.md R152). -/
def State.stopUnrecognized (s : State) : State :=
  s.stopWith ⟨.unrecognized, s.cur.execSlot.word, s.cur.instrAddr⟩

/-- A condition-failed instruction: the charge of a sequential access and nothing else (41_pipeline.md R149). -/
def State.skip (s : State) : State :=
  s.onCur fun c => c.charge (s.cfg.seqCost s.turn c.widthBytes c.instrAddr)

/-- The rule of a recognized instruction, then access_mem, write_reg and the charge; a stop of the rule ends it at
once (41_pipeline.md R149, R159). -/
def State.perform (s : State) (w : PcCommit) (rule : Rule) : State :=
  match rule s.turn s with
  | .stop d s1 => s1.stopWith d
  | .done s1 =>
    match s1.writeStaged s.turn w with
    | .stop d s2 => s2.stopWith d
    | .done s2 =>
      let sl := s.cur.execSlot
      let r := TickRec.executed sl.tag sl.word s.cur.instrAddr (s2.traffic.drop s.traffic.length)
      s2.onCur fun c => c.charge (s.cfg.tickCycles s.turn r)

/-- An instruction without a condition test (41_pipeline.md R149, R151). -/
def runAlways (i : Instr) (w : PcCommit) (rule : Rule) (s : State) : Out :=
  if i.recognizedOn s.turn then .next (s.perform w rule) else .next s.stopUnrecognized

/-- An ARM instruction: the condition test first (41_pipeline.md R149). -/
def runCond (i : Instr) (c : Cond) (w : PcCommit) (rule : Rule) (s : State) : Out :=
  if checkCondition c s.cur.cpsr then runAlways i w rule s else .next s.skip

/-- The two unconditional classes of FAST, whose words SLOW skips under cond = 1111 (41_pipeline.md R151,
30_encoding.md R104). -/
def runFastUncond (i : Instr) (rule : Rule) (s : State) : Out :=
  match s.turn with
  | .fast => runAlways i .load rule s
  | .slow => .next s.skip

end Sys2Proof.Machine
end

