-- ==== Sys2Proof/Machine/Operands.lean ====
section
/-! DEFINITION. The operand forms: the shifter (40_alu_shifter.md R120 to R125), operand 2 of data processing
(42_arm_dataproc.md R170 to R173), the addressing of single and block transfers (43_arm_loadstore.md R215, R216,
R226, R237, R238) and the immediates of 30_encoding.md R91 and R92. -/

namespace Sys2Proof.Machine

/-! ## The shifter -/

/-- LSL (40_alu_shifter.md R121). -/
def shiftLsl (v : Word) (s : Nat) : Word × Option Bool :=
  if s = 0 then (v, none)
  else if s ≤ 31 then (v <<< s, some (v.getLsbD (32 - s)))
  else (0#32, some false)

/-- LSR (40_alu_shifter.md R122). -/
def shiftLsr (v : Word) (s : Nat) : Word × Option Bool :=
  if s = 0 ∨ s = 32 then (0#32, some (v.getLsbD 31))
  else if s ≤ 31 then (v >>> s, some (v.getLsbD (s - 1)))
  else (0#32, some false)

/-- ASR (40_alu_shifter.md R123). -/
def shiftAsr (v : Word) (s : Nat) : Word × Option Bool :=
  if s = 0 ∨ s ≥ 32 then (if v.getLsbD 31 then 0xFFFFFFFF#32 else 0#32, some (v.getLsbD 31))
  else (v.sshiftRight s, some (v.getLsbD (s - 1)))

/-- ROR, with RRX at amount 0 (40_alu_shifter.md R124). -/
def shiftRor (v : Word) (s : Nat) (cin : Bool) : Word × Option Bool :=
  if s = 0 then ((if cin then 0x80000000#32 else 0#32) ||| (v >>> 1), some (v.getLsbD 0))
  else (v.rotateRight (s % 32), some (v.getLsbD ((s - 1) % 32)))

/-- The operator of a shift type. -/
def shiftOp (ty : ShiftType) (v : Word) (s : Nat) (cin : Bool) : Word × Option Bool :=
  match ty with
  | .lsl => shiftLsl v s
  | .lsr => shiftLsr v s
  | .asr => shiftAsr v s
  | .ror => shiftRor v s cin

/-- `shift_reg(type, v, s8, C_in)`: a register amount of 0 bypasses the shifter (40_alu_shifter.md R125). -/
def shiftReg (ty : ShiftType) (v : Word) (s8 : Nat) (cin : Bool) : Word × Option Bool :=
  if s8 = 0 then (v, none) else shiftOp ty v s8 cin

/-! ## Operand 2 -/

/-- The three forms of operand 2 (42_arm_dataproc.md R170). -/
inductive Operand2 where
  | shiftImm (amount : BitVec 5) (ty : ShiftType) (rm : Reg)
  | shiftReg (rs : Reg) (ty : ShiftType) (rm : Reg)
  | imm (rot : BitVec 4) (imm8 : BitVec 8)
  deriving DecidableEq, Repr

/-- `ROR(zext_32(imm8), 2*rotate)` (30_encoding.md R91). -/
def rotatedImm (rot : BitVec 4) (imm8 : BitVec 8) : Word := (imm8.setWidth 32 : Word).rotateRight (2 * rot.toNat)

/-- `operand2(word)`: the value and the shifter's carry-out (42_arm_dataproc.md R171 to R173). -/
def CoreState.operand2 (c : CoreState) : Operand2 → Word × Option Bool
  | .shiftImm amount ty rm => shiftOp ty (c.reg rm) amount.toNat (psrC c.cpsr)
  | .shiftReg rs ty rm => Sys2Proof.Machine.shiftReg ty (c.reg rm) ((c.reg rs).extractLsb' 0 8).toNat (psrC c.cpsr)
  | .imm rot imm8 => (rotatedImm rot imm8, if rot = 0#4 then none else some ((rotatedImm rot imm8).getLsbD 31))

/-! ## Addressing of single transfers -/

/-- The shifted register offset of A_SDT (43_arm_loadstore.md R215). -/
def CoreState.shiftedOffset (c : CoreState) (amount : BitVec 5) (ty : ShiftType) (rm : Reg) : Word :=
  (shiftOp ty (c.reg rm) amount.toNat (psrC c.cpsr)).1

/-- The offset of A_HDT (43_arm_loadstore.md R226). -/
def CoreState.hdtOffset (c : CoreState) : HdtOffset → Word
  | .imm v => v.setWidth 32
  | .reg rm => c.reg rm

/-- The address of an access, the write-back value, and whether it is written (43_arm_loadstore.md R216). -/
structure Addressing where
  addr : Word
  offaddr : Word
  wb : Bool
  deriving DecidableEq, Repr

/-- Address and write-back of A_SDT and A_HDT (43_arm_loadstore.md R216). -/
def CoreState.addressing (c : CoreState) (mode : IndexMode) (up : Bool) (rn : Reg) (off : Word) : Addressing :=
  let base := c.reg rn
  let offaddr := if up then base + off else base - off
  match mode with
  | .offset => ⟨offaddr, offaddr, false⟩
  | .pre => ⟨offaddr, offaddr, true⟩
  | .post => ⟨base, offaddr, true⟩

/-! ## Block transfers -/

/-- The registers of a list, in increasing number (43_arm_loadstore.md R238). -/
def regsOf (list : BitVec 16) : List Reg := allRegs.filter fun i => list.getLsbD (regNumber i)

/-- `popcount(list)` (43_arm_loadstore.md R237). -/
def listCount (list : BitVec 16) : Nat := (regsOf list).length

/-- `4n` as an address difference. -/
def listSpan (list : BitVec 16) : Word := BitVec.ofNat 32 (4 * listCount list)

/-- The start address of a block transfer from base `b` (43_arm_loadstore.md R238). -/
def blockStart (bm : BlockMode) (b span : Word) : Word :=
  match bm with
  | .ia => b
  | .ib => b + 4#32
  | .da => b - span + 4#32
  | .db => b - span

/-- The write-back value of a block transfer from base `b` (43_arm_loadstore.md R238). -/
def blockWriteBack (bm : BlockMode) (b span : Word) : Word :=
  match bm with
  | .ia => b + span
  | .ib => b + span
  | .da => b - span
  | .db => b - span

/-! ## Branch offsets -/

/-- `sext_32(imm24 : 00)` (30_encoding.md R91). -/
def branchOffset (off : BitVec 24) : Word := (off ++ 0#2).signExtend 32

/-- `sext_32(imm24 : H : 0)` (30_encoding.md R91). -/
def blxOffset (off : BitVec 24) (h : Bool) : Word := ((off ++ BitVec.ofBool h) ++ 0#1).signExtend 32

/-- `sext_32(imm8 : 0)` of Thumb format 16 (30_encoding.md R92). -/
def thumbCondOffset (off : BitVec 8) : Word := (off ++ 0#1).signExtend 32

/-- `sext_32(imm11 : 0)` of Thumb format 18 (30_encoding.md R92). -/
def thumbOffset (off : BitVec 11) : Word := (off ++ 0#1).signExtend 32

/-- `sext_32(imm11) << 12` of the first half of Thumb format 19 (30_encoding.md R92). -/
def blPrefixOffset (off : BitVec 11) : Word := off.signExtend 32 <<< 12

/-- `zext_32(imm11) << 1` of the second half of Thumb format 19 (30_encoding.md R92). -/
def blSuffixOffset (off : BitVec 11) : Word := off.setWidth 32 <<< 1

/-- `zext_32(imm8) << 2` of Thumb formats 6, 11 and 12 (30_encoding.md R92). -/
def scaled8 (imm8 : BitVec 8) : Word := imm8.setWidth 32 <<< 2

/-- `zext_32(imm7) << 2` of Thumb format 13 (30_encoding.md R92). -/
def scaled7 (imm7 : BitVec 7) : Word := imm7.setWidth 32 <<< 2

/-- `zext_32(imm5) << n` of Thumb formats 9 and 10 (30_encoding.md R92). -/
def scaled5 (imm5 : BitVec 5) (n : Nat) : Word := imm5.setWidth 32 <<< n

end Sys2Proof.Machine
end

