-- ==== Sys2Proof/Machine/LoadStore.lean ====
section
/-! DEFINITION. The meanings of the ARM single transfers, halfword and doubleword transfers, swaps and PLD
(43_arm_loadstore.md R215 to R236, R241 to R243). -/

namespace Sys2Proof.Machine

/-! ## One access -/

/-- A load of a value at an effective address on core `k`: the value and the machine after the access. -/
abbrev Loader := CoreId → State → Word → Word × State

/-- A store of a value at an effective address. -/
abbrev Storer := State → Word → Word → State

/-- The word load of 43_arm_loadstore.md R233: the aligned word, rotated by the low address bits. -/
def loadWord : Loader := fun _ s addr =>
  let r := s.read (alignWord addr) .word
  (r.1.rotateRight (8 * (addr.extractLsb' 0 2).toNat), r.2)

/-- The byte load (43_arm_loadstore.md R233). -/
def loadByte : Loader := fun _ s addr => s.read addr .byte

/-- The signed byte load (43_arm_loadstore.md R233). -/
def loadSignedByte : Loader := fun _ s addr =>
  let r := s.read addr .byte
  ((r.1.extractLsb' 0 8).signExtend 32, r.2)

/-- The unsigned halfword load: SLOW rotates an odd address by 8, FAST does not (43_arm_loadstore.md R233). -/
def loadHalf : Loader := fun k s addr =>
  let r := s.read (alignHalf addr) .half
  match k with
  | .fast => r
  | .slow => (r.1.rotateRight (8 * (addr.extractLsb' 0 1).toNat), r.2)

/-- The signed halfword load: at an odd address SLOW loads the signed byte, FAST the halfword of the address
aligned down (43_arm_loadstore.md R233). -/
def loadSignedHalf : Loader := fun k s addr =>
  if k = .slow ∧ addr.getLsbD 0 = true then loadSignedByte k s addr
  else
    let r := s.read (alignHalf addr) .half
    ((r.1.extractLsb' 0 16).signExtend 32, r.2)

/-- The word store (43_arm_loadstore.md R234). -/
def storeWord : Storer := fun s addr v => s.write (alignWord addr) .word v

/-- The byte store (43_arm_loadstore.md R234). -/
def storeByte : Storer := fun s addr v => s.write addr .byte v

/-- The halfword store (43_arm_loadstore.md R234). -/
def storeHalf : Storer := fun s addr v => s.write (alignHalf addr) .half v

/-- The value a store takes from register `rd`: `A + STR_PC_OFFSET` for r15 (43_arm_loadstore.md R234). -/
def State.storeValue (s : State) (rd : Reg) : Word :=
  if rd = .r15 then s.cur.instrAddr + s.cfg.strPcOffset else s.cur.reg rd

/-- Base write-back, a direct register write (43_arm_loadstore.md R216). -/
def State.writeBase (s : State) (a : Addressing) (rn : Reg) : State :=
  if a.wb then s.onCur fun c => c.setReg rn a.offaddr else s

/-- Staging a loaded value for register `i` of the current mode (41_pipeline.md R153). -/
def State.stageReg (s : State) (i : Reg) (addr v : Word) : State :=
  s.onCur fun c => c.stage i (phys i c.mode) addr v

/-- The order of a load: access, write-back, staging (43_arm_loadstore.md R216, R218). -/
def loadRule (ld : Loader) (rn rd : Reg) (addressing : CoreState → Addressing) : Rule := fun k s =>
  let a := addressing s.cur
  let r := ld k s a.addr
  .done ((r.2.writeBase a rn).stageReg rd a.addr r.1)

/-- The order of a store: the data register, the access, write-back (43_arm_loadstore.md R216, R219). -/
def storeRule (st : Storer) (rn rd : Reg) (addressing : CoreState → Addressing) : Rule := fun _ s =>
  let a := addressing s.cur
  let s1 := st s a.addr (s.storeValue rd)
  .done ((s1.onCur fun c => c.recordAddr rd a.addr).writeBase a rn)

/-- LDRD: two words from the address aligned down, lower address first, unrotated (43_arm_loadstore.md R231).  The
address list takes the effective address for Rd (R216) and, for Rd + 1, of which no rule speaks, the address of its
word: DEDUCED, safe (notes/assumptions/25.md). -/
def ldrdRule (rn rd : Reg) (addressing : CoreState → Addressing) : Rule := fun _ s =>
  let a := addressing s.cur
  let a0 := alignWord a.addr
  let r0 := s.read a0 .word
  let r1 := r0.2.read (a0 + 4#32) .word
  .done (((r1.2.writeBase a rn).stageReg rd a.addr r0.1).stageReg rd.succ (a0 + 4#32) r1.1)

/-- STRD: two words to the address aligned down, lower address first (43_arm_loadstore.md R232).  The address list takes
the same addresses as for LDRD (notes/assumptions/25.md). -/
def strdRule (rn rd : Reg) (addressing : CoreState → Addressing) : Rule := fun _ s =>
  let a := addressing s.cur
  let a0 := alignWord a.addr
  let s1 := (s.write a0 .word (s.cur.reg rd)).write (a0 + 4#32) .word (s.cur.reg rd.succ)
  .done ((s1.onCur fun c => (c.recordAddr rd a.addr).recordAddr rd.succ (a0 + 4#32)).writeBase a rn)

/-- SWP and SWPB: the read, then the write, then the staging of Rd (43_arm_loadstore.md R241, R242). -/
def swapRule (ld : Loader) (st : Storer) (rn rd rm : Reg) : Rule := fun k s =>
  let addr := s.cur.reg rn
  let v := s.cur.reg rm
  let r := ld k s addr
  .done ((st r.2 addr v).stageReg rd addr r.1)

/-- The addressing of A_SDT with an immediate offset (43_arm_loadstore.md R215, R216). -/
def sdtImm (mode : IndexMode) (up : Bool) (rn : Reg) (imm12 : BitVec 12) (c : CoreState) : Addressing :=
  c.addressing mode up rn (imm12.setWidth 32)

/-- The addressing of A_SDT with a shifted register offset (43_arm_loadstore.md R215, R216). -/
def sdtReg (mode : IndexMode) (up : Bool) (rn : Reg) (amount : BitVec 5) (ty : ShiftType) (rm : Reg) (c : CoreState) :
    Addressing :=
  c.addressing mode up rn (c.shiftedOffset amount ty rm)

/-- The addressing of A_HDT (43_arm_loadstore.md R226). -/
def hdtAddr (mode : IndexMode) (up : Bool) (rn : Reg) (off : HdtOffset) (c : CoreState) : Addressing :=
  c.addressing mode up rn (c.hdtOffset off)

/-! ## The meanings -/

/-- LDR with an immediate offset (43_arm_loadstore.md R218). -/
def execLdrImm (c : Cond) (mode : IndexMode) (up : Bool) (rn rd : Reg) (imm12 : BitVec 12) (st : State) : Out :=
  runCond (.ldrImm c mode up rn rd imm12) c .load (loadRule loadWord rn rd (sdtImm mode up rn imm12)) st

/-- LDR with a shifted register offset (43_arm_loadstore.md R218). -/
def execLdrReg (c : Cond) (mode : IndexMode) (up : Bool) (rn rd : Reg) (amount : BitVec 5) (ty : ShiftType) (rm : Reg)
    (st : State) : Out :=
  runCond (.ldrReg c mode up rn rd amount ty rm) c .load (loadRule loadWord rn rd (sdtReg mode up rn amount ty rm)) st

/-- STR with an immediate offset (43_arm_loadstore.md R219). -/
def execStrImm (c : Cond) (mode : IndexMode) (up : Bool) (rn rd : Reg) (imm12 : BitVec 12) (st : State) : Out :=
  runCond (.strImm c mode up rn rd imm12) c .load (storeRule storeWord rn rd (sdtImm mode up rn imm12)) st

/-- STR with a shifted register offset (43_arm_loadstore.md R219). -/
def execStrReg (c : Cond) (mode : IndexMode) (up : Bool) (rn rd : Reg) (amount : BitVec 5) (ty : ShiftType) (rm : Reg)
    (st : State) : Out :=
  runCond (.strReg c mode up rn rd amount ty rm) c .load (storeRule storeWord rn rd (sdtReg mode up rn amount ty rm)) st

/-- LDRB with an immediate offset (43_arm_loadstore.md R220). -/
def execLdrbImm (c : Cond) (mode : IndexMode) (up : Bool) (rn rd : Reg) (imm12 : BitVec 12) (st : State) : Out :=
  runCond (.ldrbImm c mode up rn rd imm12) c .load (loadRule loadByte rn rd (sdtImm mode up rn imm12)) st

/-- LDRB with a shifted register offset (43_arm_loadstore.md R220). -/
def execLdrbReg (c : Cond) (mode : IndexMode) (up : Bool) (rn rd : Reg) (amount : BitVec 5) (ty : ShiftType) (rm : Reg)
    (st : State) : Out :=
  runCond (.ldrbReg c mode up rn rd amount ty rm) c .load (loadRule loadByte rn rd (sdtReg mode up rn amount ty rm)) st

/-- STRB with an immediate offset (43_arm_loadstore.md R221). -/
def execStrbImm (c : Cond) (mode : IndexMode) (up : Bool) (rn rd : Reg) (imm12 : BitVec 12) (st : State) : Out :=
  runCond (.strbImm c mode up rn rd imm12) c .load (storeRule storeByte rn rd (sdtImm mode up rn imm12)) st

/-- STRB with a shifted register offset (43_arm_loadstore.md R221). -/
def execStrbReg (c : Cond) (mode : IndexMode) (up : Bool) (rn rd : Reg) (amount : BitVec 5) (ty : ShiftType) (rm : Reg)
    (st : State) : Out :=
  runCond (.strbReg c mode up rn rd amount ty rm) c .load (storeRule storeByte rn rd (sdtReg mode up rn amount ty rm)) st

/-- LDRT with an immediate offset, post-indexed (43_arm_loadstore.md R222, R236). -/
def execLdrtImm (c : Cond) (up : Bool) (rn rd : Reg) (imm12 : BitVec 12) (st : State) : Out :=
  runCond (.ldrtImm c up rn rd imm12) c .load (loadRule loadWord rn rd (sdtImm .post up rn imm12)) st

/-- LDRT with a shifted register offset, post-indexed (43_arm_loadstore.md R222, R236). -/
def execLdrtReg (c : Cond) (up : Bool) (rn rd : Reg) (amount : BitVec 5) (ty : ShiftType) (rm : Reg) (st : State) : Out :=
  runCond (.ldrtReg c up rn rd amount ty rm) c .load (loadRule loadWord rn rd (sdtReg .post up rn amount ty rm)) st

/-- STRT with an immediate offset, post-indexed (43_arm_loadstore.md R223, R236). -/
def execStrtImm (c : Cond) (up : Bool) (rn rd : Reg) (imm12 : BitVec 12) (st : State) : Out :=
  runCond (.strtImm c up rn rd imm12) c .load (storeRule storeWord rn rd (sdtImm .post up rn imm12)) st

/-- STRT with a shifted register offset, post-indexed (43_arm_loadstore.md R223, R236). -/
def execStrtReg (c : Cond) (up : Bool) (rn rd : Reg) (amount : BitVec 5) (ty : ShiftType) (rm : Reg) (st : State) : Out :=
  runCond (.strtReg c up rn rd amount ty rm) c .load (storeRule storeWord rn rd (sdtReg .post up rn amount ty rm)) st

/-- LDRBT with an immediate offset, post-indexed (43_arm_loadstore.md R224, R236). -/
def execLdrbtImm (c : Cond) (up : Bool) (rn rd : Reg) (imm12 : BitVec 12) (st : State) : Out :=
  runCond (.ldrbtImm c up rn rd imm12) c .load (loadRule loadByte rn rd (sdtImm .post up rn imm12)) st

/-- LDRBT with a shifted register offset, post-indexed (43_arm_loadstore.md R224, R236). -/
def execLdrbtReg (c : Cond) (up : Bool) (rn rd : Reg) (amount : BitVec 5) (ty : ShiftType) (rm : Reg) (st : State) : Out :=
  runCond (.ldrbtReg c up rn rd amount ty rm) c .load (loadRule loadByte rn rd (sdtReg .post up rn amount ty rm)) st

/-- STRBT with an immediate offset, post-indexed (43_arm_loadstore.md R225, R236). -/
def execStrbtImm (c : Cond) (up : Bool) (rn rd : Reg) (imm12 : BitVec 12) (st : State) : Out :=
  runCond (.strbtImm c up rn rd imm12) c .load (storeRule storeByte rn rd (sdtImm .post up rn imm12)) st

/-- STRBT with a shifted register offset, post-indexed (43_arm_loadstore.md R225, R236). -/
def execStrbtReg (c : Cond) (up : Bool) (rn rd : Reg) (amount : BitVec 5) (ty : ShiftType) (rm : Reg) (st : State) : Out :=
  runCond (.strbtReg c up rn rd amount ty rm) c .load (storeRule storeByte rn rd (sdtReg .post up rn amount ty rm)) st

/-- LDRH (43_arm_loadstore.md R227). -/
def execLdrh (c : Cond) (mode : IndexMode) (up : Bool) (rn rd : Reg) (off : HdtOffset) (st : State) : Out :=
  runCond (.ldrh c mode up rn rd off) c .load (loadRule loadHalf rn rd (hdtAddr mode up rn off)) st

/-- STRH (43_arm_loadstore.md R228). -/
def execStrh (c : Cond) (mode : IndexMode) (up : Bool) (rn rd : Reg) (off : HdtOffset) (st : State) : Out :=
  runCond (.strh c mode up rn rd off) c .load (storeRule storeHalf rn rd (hdtAddr mode up rn off)) st

/-- LDRSB (43_arm_loadstore.md R229). -/
def execLdrsb (c : Cond) (mode : IndexMode) (up : Bool) (rn rd : Reg) (off : HdtOffset) (st : State) : Out :=
  runCond (.ldrsb c mode up rn rd off) c .load (loadRule loadSignedByte rn rd (hdtAddr mode up rn off)) st

/-- LDRSH (43_arm_loadstore.md R230). -/
def execLdrsh (c : Cond) (mode : IndexMode) (up : Bool) (rn rd : Reg) (off : HdtOffset) (st : State) : Out :=
  runCond (.ldrsh c mode up rn rd off) c .load (loadRule loadSignedHalf rn rd (hdtAddr mode up rn off)) st

/-- LDRD (43_arm_loadstore.md R231). -/
def execLdrd (c : Cond) (mode : IndexMode) (up : Bool) (rn rd : Reg) (off : HdtOffset) (st : State) : Out :=
  runCond (.ldrd c mode up rn rd off) c .load (ldrdRule rn rd (hdtAddr mode up rn off)) st

/-- STRD (43_arm_loadstore.md R232). -/
def execStrd (c : Cond) (mode : IndexMode) (up : Bool) (rn rd : Reg) (off : HdtOffset) (st : State) : Out :=
  runCond (.strd c mode up rn rd off) c .load (strdRule rn rd (hdtAddr mode up rn off)) st

/-- SWP (43_arm_loadstore.md R241). -/
def execSwp (c : Cond) (rn rd rm : Reg) (st : State) : Out :=
  runCond (.swp c rn rd rm) c .load (swapRule loadWord storeWord rn rd rm) st

/-- SWPB (43_arm_loadstore.md R242). -/
def execSwpb (c : Cond) (rn rd rm : Reg) (st : State) : Out :=
  runCond (.swpb c rn rd rm) c .load (swapRule loadByte storeByte rn rd rm) st

/-- PLD: no access, no change (43_arm_loadstore.md R243). -/
def execPld (regOff up : Bool) (rn : Reg) (off : BitVec 12) (st : State) : Out :=
  runFastUncond (.pld regOff up rn off) (fun _ s => .done s) st

end Sys2Proof.Machine
end

