-- ==== Sys2Proof/Machine/Block.lean ====
section
/-! DEFINITION. The meanings of the block transfers LDM and STM (43_arm_loadstore.md R237 to R240). -/

namespace Sys2Proof.Machine

/-- The loads of a block transfer, in increasing register number from address `addr`, each staged; `user` stages
into the USR bank (43_arm_loadstore.md R239). -/
def loadMany (user : Bool) : List Reg → Word → State → State
  | [], _, s => s
  | i :: rest, addr, s =>
    let r := s.read addr .word
    loadMany user rest (addr + 4#32)
      (r.2.onCur fun c => c.stage i (phys i (if user then .usr else c.mode)) addr r.1)

/-- The stores of a block transfer, in increasing register number from address `addr` (43_arm_loadstore.md
R240). -/
def storeMany (value : Reg → Word) : List Reg → Word → State → State
  | [], _, s => s
  | i :: rest, addr, s =>
    storeMany value rest (addr + 4#32) ((s.write addr .word (value i)).onCur fun c => c.recordAddr i addr)

/-- The write-back of a block transfer. -/
def State.writeBlockBase (s : State) (w : Bool) (rn : Reg) (v : Word) : State :=
  if w then s.onCur fun c => c.setReg rn v else s

/-- `ldm(word)` up to write_reg (43_arm_loadstore.md R239). -/
def ldmRule (bm : BlockMode) (s w : Bool) (rn : Reg) (list : BitVec 16) : Rule := fun _ st =>
  let b := st.cur.reg rn
  let user := s && !list.getLsbD 15
  let s1 := loadMany user (regsOf list) (alignWord (blockStart bm b (listSpan list))) st
  .done (s1.writeBlockBase w rn (blockWriteBack bm b (listSpan list)))

/-- The value STM stores for register `i` (43_arm_loadstore.md R240). -/
def State.stmValue (st : State) (s : Bool) (i : Reg) : Word :=
  if i = .r15 then st.cur.instrAddr + st.cfg.strPcOffset else if s then st.cur.regUsr i else st.cur.reg i

/-- `stm(word)` (43_arm_loadstore.md R240). -/
def stmRule (bm : BlockMode) (s w : Bool) (rn : Reg) (list : BitVec 16) : Rule := fun _ st =>
  let b := st.cur.reg rn
  let s1 := storeMany (st.stmValue s) (regsOf list) (alignWord (blockStart bm b (listSpan list))) st
  .done (s1.writeBlockBase w rn (blockWriteBack bm b (listSpan list)))

/-- LDM (43_arm_loadstore.md R239). -/
def execLdm (c : Cond) (bm : BlockMode) (s w : Bool) (rn : Reg) (list : BitVec 16) (st : State) : Out :=
  runCond (.ldm c bm s w rn list) c (if s then .restore else .load) (ldmRule bm s w rn list) st

/-- STM (43_arm_loadstore.md R240). -/
def execStm (c : Cond) (bm : BlockMode) (s w : Bool) (rn : Reg) (list : BitVec 16) (st : State) : Out :=
  runCond (.stm c bm s w rn list) c .load (stmRule bm s w rn list) st

end Sys2Proof.Machine
end

