-- ==== Sys2Proof/Machine/BranchSystem.lean ====
section
/-! DEFINITION. The meanings of the ARM branches, SWI, BKPT and the CP15 transfers (44_arm_branch_system.md R245 to
R256), with the SWI services (60_exceptions.md R365 to R370). -/

namespace Sys2Proof.Machine

/-! ## Branches -/

/-- A branch to `r15 + off`, where r15 reads `A + 2W` (44_arm_branch_system.md R245). -/
def branchRule (off : Word) : CoreRule := fun _ c => .done (c.writePc (c.reg .r15 + off))

/-- BL: r14, then the branch (44_arm_branch_system.md R246). -/
def branchLinkRule (off : Word) : CoreRule := fun _ c =>
  .done ((c.setReg .r14 (c.instrAddr + 4#32)).writePc (c.reg .r15 + off))

/-- BX (44_arm_branch_system.md R247, 45_thumb.md R296). -/
def bxRule (rm : Reg) : CoreRule := fun k c => .done (c.branchExchange k (c.reg rm))

/-- BLX register: Rm is read before r14 is written (44_arm_branch_system.md R249); `link` is the value of r14. -/
def blxRule (rm : Reg) (link : CoreState → Word) : CoreRule := fun k c =>
  .done ((c.setReg .r14 (link c)).branchExchange k (c.reg rm))

/-- BLX immediate: r14, Thumb state, the branch (44_arm_branch_system.md R248). -/
def blxImmRule (off : Word) : CoreRule := fun k c =>
  let c1 := c.setReg .r14 (c.instrAddr + 4#32)
  .done ((c1.setCpsr k (psrSetT c1.cpsr true)).writePc (c.reg .r15 + off))

/-! ## Software interrupt -/

/-- The software-interrupt exception of TRAP mode (60_exceptions.md R365). -/
def swiTrap (vbase : Word) : CoreRule := fun k c =>
  .done (c.enterException k vbase .svc 0x08#32 (c.instrAddr + c.width) false)

/-- The entry of WAIT_INTERRUPT with selector `sel` and mask `m` (60_exceptions.md R368). -/
def State.enterWaitInterrupt (s : State) (sel m : Word) : State :=
  let p := s.curPorts
  let s1 := s.setPorts { p with
    ieSaved := p.ie
    ifSaved := p.iflag
    ie := m
    iflag := if s.cfg.waitClearsPending then 0#32 else p.iflag }
  s1.onCur fun c => { c with waitAnySel := sel, idleState := .waitInterrupt }

/-- The entry of HALTED (60_exceptions.md R369). -/
def State.enterHalted (s : State) : State := s.onCur fun c => { c with idleState := .halted }

/-- The entry of WAIT_LOOP (60_exceptions.md R370). -/
def State.enterWaitLoop (s : State) (count : Word) : State :=
  s.onCur fun c => { c with waitCount := count, idleState := .waitLoop }

/-- An address aligned to a width (20_memory.md R64). -/
def alignTo (w : Width) (a : Word) : Word :=
  match w with
  | .byte => a
  | .half => alignHalf a
  | .word => alignWord a

/-- One action of a BIOS service: it reaches the general registers of the current mode and memory, and never r15
(60_exceptions.md R357, R366). -/
def State.biosAct (s : State) : BiosAction → State
  | .setReg i v => if i = .r15 then s else s.onCur fun c => c.setReg i v
  | .read addr w => (s.read (alignTo w addr) w).2
  | .write addr w v => s.write (alignTo w addr) w v

/-- `BiosService.call(k, n)` (60_exceptions.md R357), by the actions the collaborator answers with
(notes/assumptions/9.md). -/
def State.biosService (s : State) (k : CoreId) (n : BitVec 8) : State :=
  let call := BiosCall.mk k n (RegMap.ofFn fun i => s.cur.reg i) s.mem s.biosCalls
  let s1 := (Config.biosActions call).foldl State.biosAct s
  { s1 with biosCalls := s1.biosCalls + 1 }

/-- `hle_swi(k, n)` (60_exceptions.md R366, R367). -/
def hleSwi (n : BitVec 8) : Rule := fun k s =>
  match n.toNat with
  | 0x03 => .done (s.enterWaitLoop (s.cur.reg .r0))
  | 0x04 => .done (s.enterWaitInterrupt (s.cur.reg .r0) (s.cur.reg .r1))
  | 0x05 => .done (s.enterWaitInterrupt 1#32 1#32)
  | 0x06 => .done s.enterHalted
  | _ =>
    if s.cfg.biosService then .done (s.biosService k n)
    else .stop ⟨.noService, n.setWidth 32, s.cur.instrAddr⟩ s

/-- SWI with service number `n` (44_arm_branch_system.md R250, 45_thumb.md R324). -/
def swiRule (n : BitVec 8) : Rule := fun k s =>
  match s.cfg.swiMode with
  | .trap => onCore (swiTrap (s.cfg.vbase.get k)) k s
  | .hle => hleSwi n k s

/-! ## Coprocessor 15 -/

/-- The wait-for-interrupt operations of MCR (44_arm_branch_system.md R254). -/
def isWaitForInterrupt (r : Cp15Reg) : Bool :=
  r.op1 == 0#3 && r.crn == 7#4 && ((r.crm == 0#4 && r.op2 == 4#3) || (r.crm == 8#4 && r.op2 == 2#3))

/-- Whether CP15 access is refused: user mode (44_arm_branch_system.md R253). -/
def CoreState.cp15Denied (c : CoreState) : Bool := psrMode? c.cpsr == some .usr

/-- `Cp15.write` (44_arm_branch_system.md R254, R256): recorded for a given collaborator, discarded otherwise. -/
def State.cp15Write (s : State) (r : Cp15Reg) (v : Word) : State :=
  if s.cfg.cp15 then { s with cp15Log := s.cp15Log ++ [.write r v] } else s

/-- `Cp15.read` (44_arm_branch_system.md R255, R256): 0 when no collaborator is given. -/
def State.cp15Read (s : State) (r : Cp15Reg) : Word × State :=
  if s.cfg.cp15 then (Config.cp15Answer s.cp15Log r, { s with cp15Log := s.cp15Log ++ [.read r] }) else (0#32, s)

/-- The stop of a CP15 access in user mode (44_arm_branch_system.md R253). -/
def State.cp15Stop (s : State) : Result State :=
  .stop ⟨.unrecognized, s.cur.execSlot.word, s.cur.instrAddr⟩ s

/-- MCR p15 (44_arm_branch_system.md R254). -/
def mcrRule (r : Cp15Reg) (rd : Reg) : Rule := fun _ s =>
  if s.cur.cp15Denied then s.cp15Stop
  else
    let s1 := s.cp15Write r (s.cur.reg rd)
    .done (if isWaitForInterrupt r then s1.enterHalted else s1)

/-- The status word with its four flags replaced by bits 31:28 of `v` (44_arm_branch_system.md R255). -/
def flagsFrom (cpsr v : Word) : Word := putMasked cpsr 0xF0000000#32 v

/-- MRC p15 (44_arm_branch_system.md R255). -/
def mrcRule (r : Cp15Reg) (rd : Reg) : Rule := fun k s =>
  if s.cur.cp15Denied then s.cp15Stop
  else
    let a := s.cp15Read r
    .done (a.2.onCur fun c => if rd = .r15 then c.setCpsr k (flagsFrom c.cpsr a.1) else c.setReg rd a.1)

/-! ## The meanings -/

/-- B (44_arm_branch_system.md R245). -/
def execB (c : Cond) (off : BitVec 24) (st : State) : Out :=
  runCond (.b c off) c .load (onCore (branchRule (branchOffset off))) st

/-- BL (44_arm_branch_system.md R246). -/
def execBl (c : Cond) (off : BitVec 24) (st : State) : Out :=
  runCond (.bl c off) c .load (onCore (branchLinkRule (branchOffset off))) st

/-- BX (44_arm_branch_system.md R247). -/
def execBx (c : Cond) (rm : Reg) (st : State) : Out := runCond (.bx c rm) c .load (onCore (bxRule rm)) st

/-- BLX immediate (44_arm_branch_system.md R248). -/
def execBlxImm (h : Bool) (off : BitVec 24) (st : State) : Out :=
  runFastUncond (.blxImm h off) (onCore (blxImmRule (blxOffset off h))) st

/-- BLX register (44_arm_branch_system.md R249). -/
def execBlxReg (c : Cond) (rm : Reg) (st : State) : Out :=
  runCond (.blxReg c rm) c .load (onCore (blxRule rm fun x => x.instrAddr + 4#32)) st

/-- SWI, whose service number is bits 23:16 (44_arm_branch_system.md R250). -/
def execSwi (c : Cond) (comment : BitVec 24) (st : State) : Out :=
  runCond (.swi c comment) c .load (swiRule (comment.extractLsb' 16 8)) st

/-- BKPT: tagged UNRECOGNIZED, it stops the core (44_arm_branch_system.md R251). -/
def execBkpt (imm16 : BitVec 16) (st : State) : Out :=
  runCond (.bkpt imm16) .al .load (fun _ s => .stop ⟨.unrecognized, s.cur.execSlot.word, s.cur.instrAddr⟩ s) st

/-- MCR (44_arm_branch_system.md R254). -/
def execMcr (c : Cond) (op1 : BitVec 3) (crn : BitVec 4) (rd : Reg) (op2 : BitVec 3) (crm : BitVec 4) (st : State) : Out :=
  runCond (.mcr c op1 crn rd op2 crm) c .load (mcrRule ⟨op1, crn, crm, op2⟩ rd) st

/-- MRC (44_arm_branch_system.md R255). -/
def execMrc (c : Cond) (op1 : BitVec 3) (crn : BitVec 4) (rd : Reg) (op2 : BitVec 3) (crm : BitVec 4) (st : State) : Out :=
  runCond (.mrc c op1 crn rd op2 crm) c .load (mrcRule ⟨op1, crn, crm, op2⟩ rd) st

end Sys2Proof.Machine
end

