-- ==== Sys2Proof/Machine/DataProc.lean ====
section
/-! DEFINITION. The meanings of the ARM data-processing instructions (42_arm_dataproc.md R170 to R190). -/

namespace Sys2Proof.Machine

/-- The sixteen operations (30_encoding.md R89). -/
inductive DpOp where
  | and | eor | sub | rsb | add | adc | sbc | rsc | tst | teq | cmp | cmn | orr | mov | bic | mvn
  deriving DecidableEq, Repr

/-- `op_<opcode>(a, sh, co, C_in)`: the result, and the status word with the operation's flag update applied
(42_arm_dataproc.md R175 to R190). -/
def dpCompute (op : DpOp) (cpsr a sh : Word) (co : Option Bool) : Word × Word :=
  let cin := psrC cpsr
  match op with
  | .and => (a &&& sh, updateLogical cpsr (a &&& sh) co)
  | .eor => (a ^^^ sh, updateLogical cpsr (a ^^^ sh) co)
  | .sub => (a - sh, updateArith cpsr a sh (a - sh) false)
  | .rsb => (sh - a, updateArith cpsr sh a (sh - a) false)
  | .add => (a + sh, updateArith cpsr a sh (a + sh) true)
  | .adc => (addWithCarry a sh cin, addCarryFlags cpsr a sh cin)
  | .sbc => (subWithCarry a sh cin, subCarryFlags cpsr a sh cin)
  | .rsc => (subWithCarry sh a cin, subCarryFlags cpsr sh a cin)
  | .tst => (a &&& sh, updateLogical cpsr (a &&& sh) co)
  | .teq => (a ^^^ sh, updateLogical cpsr (a ^^^ sh) co)
  | .cmp => (a - sh, updateArith cpsr a sh (a - sh) false)
  | .cmn => (a + sh, updateArith cpsr a sh (a + sh) true)
  | .orr => (a ||| sh, updateLogical cpsr (a ||| sh) co)
  | .mov => (sh, updateLogical cpsr sh co)
  | .bic => (a &&& ~~~sh, updateLogical cpsr (a &&& ~~~sh) co)
  | .mvn => (~~~sh, updateLogical cpsr (~~~sh) co)

/-- The end of `dp(word)` for an operation that writes Rd: a plain write, a branch in the current state, or an
exception return (42_arm_dataproc.md R174). -/
def dpWrite (s : Bool) (rd : Reg) (res upd : Word) : CoreRule := fun k c =>
  if rd ≠ .r15 then
    let c1 := c.setReg rd res
    .done (if s then c1.setCpsr k upd else c1)
  else if s then c.exceptionReturn k c.instrAddr res
  else .done (c.writePc res)

/-- `dp(word)` for an operation with Rn and Rd (42_arm_dataproc.md R174). -/
def dpAlu (op : DpOp) (s : Bool) (rn rd : Reg) (o : Operand2) : CoreRule := fun k c =>
  let sh := c.operand2 o
  let r := dpCompute op c.cpsr (c.reg rn) sh.1 sh.2
  dpWrite s rd r.1 r.2 k c

/-- `dp(word)` for MOV and MVN, which read no Rn (42_arm_dataproc.md R188, R190). -/
def dpMove (op : DpOp) (s : Bool) (rd : Reg) (o : Operand2) : CoreRule := fun k c =>
  let sh := c.operand2 o
  let r := dpCompute op c.cpsr 0#32 sh.1 sh.2
  dpWrite s rd r.1 r.2 k c

/-- `dp(word)` for TST, TEQ, CMP and CMN: flags only (42_arm_dataproc.md R174, R183 to R186). -/
def dpTest (op : DpOp) (rn : Reg) (o : Operand2) : CoreRule := fun k c =>
  let sh := c.operand2 o
  .done (c.setCpsr k (dpCompute op c.cpsr (c.reg rn) sh.1 sh.2).2)

/-- AND with an immediate-shift operand (42_arm_dataproc.md R175). -/
def execAndShiftImm (c : Cond) (s : Bool) (rn rd : Reg) (amount : BitVec 5) (ty : ShiftType) (rm : Reg) (st : State) : Out :=
  runCond (.andShiftImm c s rn rd amount ty rm) c .load (onCore (dpAlu .and s rn rd (.shiftImm amount ty rm))) st

/-- AND with a register-shift operand (42_arm_dataproc.md R175). -/
def execAndShiftReg (c : Cond) (s : Bool) (rn rd : Reg) (rs : Reg) (ty : ShiftType) (rm : Reg) (st : State) : Out :=
  runCond (.andShiftReg c s rn rd rs ty rm) c .load (onCore (dpAlu .and s rn rd (.shiftReg rs ty rm))) st

/-- AND with an immediate operand (42_arm_dataproc.md R175). -/
def execAndImm (c : Cond) (s : Bool) (rn rd : Reg) (rot : BitVec 4) (imm8 : BitVec 8) (st : State) : Out :=
  runCond (.andImm c s rn rd rot imm8) c .load (onCore (dpAlu .and s rn rd (.imm rot imm8))) st

/-- EOR with an immediate-shift operand (42_arm_dataproc.md R176). -/
def execEorShiftImm (c : Cond) (s : Bool) (rn rd : Reg) (amount : BitVec 5) (ty : ShiftType) (rm : Reg) (st : State) : Out :=
  runCond (.eorShiftImm c s rn rd amount ty rm) c .load (onCore (dpAlu .eor s rn rd (.shiftImm amount ty rm))) st

/-- EOR with a register-shift operand (42_arm_dataproc.md R176). -/
def execEorShiftReg (c : Cond) (s : Bool) (rn rd : Reg) (rs : Reg) (ty : ShiftType) (rm : Reg) (st : State) : Out :=
  runCond (.eorShiftReg c s rn rd rs ty rm) c .load (onCore (dpAlu .eor s rn rd (.shiftReg rs ty rm))) st

/-- EOR with an immediate operand (42_arm_dataproc.md R176). -/
def execEorImm (c : Cond) (s : Bool) (rn rd : Reg) (rot : BitVec 4) (imm8 : BitVec 8) (st : State) : Out :=
  runCond (.eorImm c s rn rd rot imm8) c .load (onCore (dpAlu .eor s rn rd (.imm rot imm8))) st

/-- SUB with an immediate-shift operand (42_arm_dataproc.md R177). -/
def execSubShiftImm (c : Cond) (s : Bool) (rn rd : Reg) (amount : BitVec 5) (ty : ShiftType) (rm : Reg) (st : State) : Out :=
  runCond (.subShiftImm c s rn rd amount ty rm) c .load (onCore (dpAlu .sub s rn rd (.shiftImm amount ty rm))) st

/-- SUB with a register-shift operand (42_arm_dataproc.md R177). -/
def execSubShiftReg (c : Cond) (s : Bool) (rn rd : Reg) (rs : Reg) (ty : ShiftType) (rm : Reg) (st : State) : Out :=
  runCond (.subShiftReg c s rn rd rs ty rm) c .load (onCore (dpAlu .sub s rn rd (.shiftReg rs ty rm))) st

/-- SUB with an immediate operand (42_arm_dataproc.md R177). -/
def execSubImm (c : Cond) (s : Bool) (rn rd : Reg) (rot : BitVec 4) (imm8 : BitVec 8) (st : State) : Out :=
  runCond (.subImm c s rn rd rot imm8) c .load (onCore (dpAlu .sub s rn rd (.imm rot imm8))) st

/-- RSB with an immediate-shift operand (42_arm_dataproc.md R178). -/
def execRsbShiftImm (c : Cond) (s : Bool) (rn rd : Reg) (amount : BitVec 5) (ty : ShiftType) (rm : Reg) (st : State) : Out :=
  runCond (.rsbShiftImm c s rn rd amount ty rm) c .load (onCore (dpAlu .rsb s rn rd (.shiftImm amount ty rm))) st

/-- RSB with a register-shift operand (42_arm_dataproc.md R178). -/
def execRsbShiftReg (c : Cond) (s : Bool) (rn rd : Reg) (rs : Reg) (ty : ShiftType) (rm : Reg) (st : State) : Out :=
  runCond (.rsbShiftReg c s rn rd rs ty rm) c .load (onCore (dpAlu .rsb s rn rd (.shiftReg rs ty rm))) st

/-- RSB with an immediate operand (42_arm_dataproc.md R178). -/
def execRsbImm (c : Cond) (s : Bool) (rn rd : Reg) (rot : BitVec 4) (imm8 : BitVec 8) (st : State) : Out :=
  runCond (.rsbImm c s rn rd rot imm8) c .load (onCore (dpAlu .rsb s rn rd (.imm rot imm8))) st

/-- ADD with an immediate-shift operand (42_arm_dataproc.md R179). -/
def execAddShiftImm (c : Cond) (s : Bool) (rn rd : Reg) (amount : BitVec 5) (ty : ShiftType) (rm : Reg) (st : State) : Out :=
  runCond (.addShiftImm c s rn rd amount ty rm) c .load (onCore (dpAlu .add s rn rd (.shiftImm amount ty rm))) st

/-- ADD with a register-shift operand (42_arm_dataproc.md R179). -/
def execAddShiftReg (c : Cond) (s : Bool) (rn rd : Reg) (rs : Reg) (ty : ShiftType) (rm : Reg) (st : State) : Out :=
  runCond (.addShiftReg c s rn rd rs ty rm) c .load (onCore (dpAlu .add s rn rd (.shiftReg rs ty rm))) st

/-- ADD with an immediate operand (42_arm_dataproc.md R179). -/
def execAddImm (c : Cond) (s : Bool) (rn rd : Reg) (rot : BitVec 4) (imm8 : BitVec 8) (st : State) : Out :=
  runCond (.addImm c s rn rd rot imm8) c .load (onCore (dpAlu .add s rn rd (.imm rot imm8))) st

/-- ADC with an immediate-shift operand (42_arm_dataproc.md R180). -/
def execAdcShiftImm (c : Cond) (s : Bool) (rn rd : Reg) (amount : BitVec 5) (ty : ShiftType) (rm : Reg) (st : State) : Out :=
  runCond (.adcShiftImm c s rn rd amount ty rm) c .load (onCore (dpAlu .adc s rn rd (.shiftImm amount ty rm))) st

/-- ADC with a register-shift operand (42_arm_dataproc.md R180). -/
def execAdcShiftReg (c : Cond) (s : Bool) (rn rd : Reg) (rs : Reg) (ty : ShiftType) (rm : Reg) (st : State) : Out :=
  runCond (.adcShiftReg c s rn rd rs ty rm) c .load (onCore (dpAlu .adc s rn rd (.shiftReg rs ty rm))) st

/-- ADC with an immediate operand (42_arm_dataproc.md R180). -/
def execAdcImm (c : Cond) (s : Bool) (rn rd : Reg) (rot : BitVec 4) (imm8 : BitVec 8) (st : State) : Out :=
  runCond (.adcImm c s rn rd rot imm8) c .load (onCore (dpAlu .adc s rn rd (.imm rot imm8))) st

/-- SBC with an immediate-shift operand (42_arm_dataproc.md R181). -/
def execSbcShiftImm (c : Cond) (s : Bool) (rn rd : Reg) (amount : BitVec 5) (ty : ShiftType) (rm : Reg) (st : State) : Out :=
  runCond (.sbcShiftImm c s rn rd amount ty rm) c .load (onCore (dpAlu .sbc s rn rd (.shiftImm amount ty rm))) st

/-- SBC with a register-shift operand (42_arm_dataproc.md R181). -/
def execSbcShiftReg (c : Cond) (s : Bool) (rn rd : Reg) (rs : Reg) (ty : ShiftType) (rm : Reg) (st : State) : Out :=
  runCond (.sbcShiftReg c s rn rd rs ty rm) c .load (onCore (dpAlu .sbc s rn rd (.shiftReg rs ty rm))) st

/-- SBC with an immediate operand (42_arm_dataproc.md R181). -/
def execSbcImm (c : Cond) (s : Bool) (rn rd : Reg) (rot : BitVec 4) (imm8 : BitVec 8) (st : State) : Out :=
  runCond (.sbcImm c s rn rd rot imm8) c .load (onCore (dpAlu .sbc s rn rd (.imm rot imm8))) st

/-- RSC with an immediate-shift operand (42_arm_dataproc.md R182). -/
def execRscShiftImm (c : Cond) (s : Bool) (rn rd : Reg) (amount : BitVec 5) (ty : ShiftType) (rm : Reg) (st : State) : Out :=
  runCond (.rscShiftImm c s rn rd amount ty rm) c .load (onCore (dpAlu .rsc s rn rd (.shiftImm amount ty rm))) st

/-- RSC with a register-shift operand (42_arm_dataproc.md R182). -/
def execRscShiftReg (c : Cond) (s : Bool) (rn rd : Reg) (rs : Reg) (ty : ShiftType) (rm : Reg) (st : State) : Out :=
  runCond (.rscShiftReg c s rn rd rs ty rm) c .load (onCore (dpAlu .rsc s rn rd (.shiftReg rs ty rm))) st

/-- RSC with an immediate operand (42_arm_dataproc.md R182). -/
def execRscImm (c : Cond) (s : Bool) (rn rd : Reg) (rot : BitVec 4) (imm8 : BitVec 8) (st : State) : Out :=
  runCond (.rscImm c s rn rd rot imm8) c .load (onCore (dpAlu .rsc s rn rd (.imm rot imm8))) st

/-- TST with an immediate-shift operand (42_arm_dataproc.md R183). -/
def execTstShiftImm (c : Cond) (rn : Reg) (amount : BitVec 5) (ty : ShiftType) (rm : Reg) (st : State) : Out :=
  runCond (.tstShiftImm c rn amount ty rm) c .load (onCore (dpTest .tst rn (.shiftImm amount ty rm))) st

/-- TST with a register-shift operand (42_arm_dataproc.md R183). -/
def execTstShiftReg (c : Cond) (rn : Reg) (rs : Reg) (ty : ShiftType) (rm : Reg) (st : State) : Out :=
  runCond (.tstShiftReg c rn rs ty rm) c .load (onCore (dpTest .tst rn (.shiftReg rs ty rm))) st

/-- TST with an immediate operand (42_arm_dataproc.md R183). -/
def execTstImm (c : Cond) (rn : Reg) (rot : BitVec 4) (imm8 : BitVec 8) (st : State) : Out :=
  runCond (.tstImm c rn rot imm8) c .load (onCore (dpTest .tst rn (.imm rot imm8))) st

/-- TEQ with an immediate-shift operand (42_arm_dataproc.md R184). -/
def execTeqShiftImm (c : Cond) (rn : Reg) (amount : BitVec 5) (ty : ShiftType) (rm : Reg) (st : State) : Out :=
  runCond (.teqShiftImm c rn amount ty rm) c .load (onCore (dpTest .teq rn (.shiftImm amount ty rm))) st

/-- TEQ with a register-shift operand (42_arm_dataproc.md R184). -/
def execTeqShiftReg (c : Cond) (rn : Reg) (rs : Reg) (ty : ShiftType) (rm : Reg) (st : State) : Out :=
  runCond (.teqShiftReg c rn rs ty rm) c .load (onCore (dpTest .teq rn (.shiftReg rs ty rm))) st

/-- TEQ with an immediate operand (42_arm_dataproc.md R184). -/
def execTeqImm (c : Cond) (rn : Reg) (rot : BitVec 4) (imm8 : BitVec 8) (st : State) : Out :=
  runCond (.teqImm c rn rot imm8) c .load (onCore (dpTest .teq rn (.imm rot imm8))) st

/-- CMP with an immediate-shift operand (42_arm_dataproc.md R185). -/
def execCmpShiftImm (c : Cond) (rn : Reg) (amount : BitVec 5) (ty : ShiftType) (rm : Reg) (st : State) : Out :=
  runCond (.cmpShiftImm c rn amount ty rm) c .load (onCore (dpTest .cmp rn (.shiftImm amount ty rm))) st

/-- CMP with a register-shift operand (42_arm_dataproc.md R185). -/
def execCmpShiftReg (c : Cond) (rn : Reg) (rs : Reg) (ty : ShiftType) (rm : Reg) (st : State) : Out :=
  runCond (.cmpShiftReg c rn rs ty rm) c .load (onCore (dpTest .cmp rn (.shiftReg rs ty rm))) st

/-- CMP with an immediate operand (42_arm_dataproc.md R185). -/
def execCmpImm (c : Cond) (rn : Reg) (rot : BitVec 4) (imm8 : BitVec 8) (st : State) : Out :=
  runCond (.cmpImm c rn rot imm8) c .load (onCore (dpTest .cmp rn (.imm rot imm8))) st

/-- CMN with an immediate-shift operand (42_arm_dataproc.md R186). -/
def execCmnShiftImm (c : Cond) (rn : Reg) (amount : BitVec 5) (ty : ShiftType) (rm : Reg) (st : State) : Out :=
  runCond (.cmnShiftImm c rn amount ty rm) c .load (onCore (dpTest .cmn rn (.shiftImm amount ty rm))) st

/-- CMN with a register-shift operand (42_arm_dataproc.md R186). -/
def execCmnShiftReg (c : Cond) (rn : Reg) (rs : Reg) (ty : ShiftType) (rm : Reg) (st : State) : Out :=
  runCond (.cmnShiftReg c rn rs ty rm) c .load (onCore (dpTest .cmn rn (.shiftReg rs ty rm))) st

/-- CMN with an immediate operand (42_arm_dataproc.md R186). -/
def execCmnImm (c : Cond) (rn : Reg) (rot : BitVec 4) (imm8 : BitVec 8) (st : State) : Out :=
  runCond (.cmnImm c rn rot imm8) c .load (onCore (dpTest .cmn rn (.imm rot imm8))) st

/-- ORR with an immediate-shift operand (42_arm_dataproc.md R187). -/
def execOrrShiftImm (c : Cond) (s : Bool) (rn rd : Reg) (amount : BitVec 5) (ty : ShiftType) (rm : Reg) (st : State) : Out :=
  runCond (.orrShiftImm c s rn rd amount ty rm) c .load (onCore (dpAlu .orr s rn rd (.shiftImm amount ty rm))) st

/-- ORR with a register-shift operand (42_arm_dataproc.md R187). -/
def execOrrShiftReg (c : Cond) (s : Bool) (rn rd : Reg) (rs : Reg) (ty : ShiftType) (rm : Reg) (st : State) : Out :=
  runCond (.orrShiftReg c s rn rd rs ty rm) c .load (onCore (dpAlu .orr s rn rd (.shiftReg rs ty rm))) st

/-- ORR with an immediate operand (42_arm_dataproc.md R187). -/
def execOrrImm (c : Cond) (s : Bool) (rn rd : Reg) (rot : BitVec 4) (imm8 : BitVec 8) (st : State) : Out :=
  runCond (.orrImm c s rn rd rot imm8) c .load (onCore (dpAlu .orr s rn rd (.imm rot imm8))) st

/-- MOV with an immediate-shift operand (42_arm_dataproc.md R188). -/
def execMovShiftImm (c : Cond) (s : Bool) (rd : Reg) (amount : BitVec 5) (ty : ShiftType) (rm : Reg) (st : State) : Out :=
  runCond (.movShiftImm c s rd amount ty rm) c .load (onCore (dpMove .mov s rd (.shiftImm amount ty rm))) st

/-- MOV with a register-shift operand (42_arm_dataproc.md R188). -/
def execMovShiftReg (c : Cond) (s : Bool) (rd : Reg) (rs : Reg) (ty : ShiftType) (rm : Reg) (st : State) : Out :=
  runCond (.movShiftReg c s rd rs ty rm) c .load (onCore (dpMove .mov s rd (.shiftReg rs ty rm))) st

/-- MOV with an immediate operand (42_arm_dataproc.md R188). -/
def execMovImm (c : Cond) (s : Bool) (rd : Reg) (rot : BitVec 4) (imm8 : BitVec 8) (st : State) : Out :=
  runCond (.movImm c s rd rot imm8) c .load (onCore (dpMove .mov s rd (.imm rot imm8))) st

/-- BIC with an immediate-shift operand (42_arm_dataproc.md R189). -/
def execBicShiftImm (c : Cond) (s : Bool) (rn rd : Reg) (amount : BitVec 5) (ty : ShiftType) (rm : Reg) (st : State) : Out :=
  runCond (.bicShiftImm c s rn rd amount ty rm) c .load (onCore (dpAlu .bic s rn rd (.shiftImm amount ty rm))) st

/-- BIC with a register-shift operand (42_arm_dataproc.md R189). -/
def execBicShiftReg (c : Cond) (s : Bool) (rn rd : Reg) (rs : Reg) (ty : ShiftType) (rm : Reg) (st : State) : Out :=
  runCond (.bicShiftReg c s rn rd rs ty rm) c .load (onCore (dpAlu .bic s rn rd (.shiftReg rs ty rm))) st

/-- BIC with an immediate operand (42_arm_dataproc.md R189). -/
def execBicImm (c : Cond) (s : Bool) (rn rd : Reg) (rot : BitVec 4) (imm8 : BitVec 8) (st : State) : Out :=
  runCond (.bicImm c s rn rd rot imm8) c .load (onCore (dpAlu .bic s rn rd (.imm rot imm8))) st

/-- MVN with an immediate-shift operand (42_arm_dataproc.md R190). -/
def execMvnShiftImm (c : Cond) (s : Bool) (rd : Reg) (amount : BitVec 5) (ty : ShiftType) (rm : Reg) (st : State) : Out :=
  runCond (.mvnShiftImm c s rd amount ty rm) c .load (onCore (dpMove .mvn s rd (.shiftImm amount ty rm))) st

/-- MVN with a register-shift operand (42_arm_dataproc.md R190). -/
def execMvnShiftReg (c : Cond) (s : Bool) (rd : Reg) (rs : Reg) (ty : ShiftType) (rm : Reg) (st : State) : Out :=
  runCond (.mvnShiftReg c s rd rs ty rm) c .load (onCore (dpMove .mvn s rd (.shiftReg rs ty rm))) st

/-- MVN with an immediate operand (42_arm_dataproc.md R190). -/
def execMvnImm (c : Cond) (s : Bool) (rd : Reg) (rot : BitVec 4) (imm8 : BitVec 8) (st : State) : Out :=
  runCond (.mvnImm c s rd rot imm8) c .load (onCore (dpMove .mvn s rd (.imm rot imm8))) st

end Sys2Proof.Machine
end

