-- ==== Sys2Proof/Machine/Multiply.lean ====
section
/-! DEFINITION. The meanings of the multiplies (42_arm_dataproc.md R193 to R199). -/

namespace Sys2Proof.Machine

/-- C after a flag-setting multiply, as MUL_C_POLICY has it: unchanged, or a free value (00_scope.md R10,
42_arm_dataproc.md R199, 92_eei_decisions.md D23; notes/assumptions/26.md). -/
def mulCarry (cfg : Config) (k : CoreId) (c : CoreState) : Bool :=
  match cfg.mulCPolicy with
  | .unchanged => psrC c.cpsr
  | .meaningless => Config.mulCarry k c.regs c.cpsr

/-- The status word after a flag-setting multiply of core state `c`: N, Z and C, with V unchanged (42_arm_dataproc.md
R199). -/
def mulPsr (cfg : Config) (k : CoreId) (c : CoreState) (n z : Bool) : Word :=
  psrSetC (psrSetNZ c.cpsr n z) (mulCarry cfg k c)

/-- The flags of a 32-bit multiply (42_arm_dataproc.md R199). -/
def mulFlags (cfg : Config) (k : CoreId) (c : CoreState) (res : Word) : Word :=
  mulPsr cfg k c (res.getLsbD 31) (res == 0#32)

/-- The flags of a long multiply, over all 64 bits (42_arm_dataproc.md R199). -/
def mullFlags (cfg : Config) (k : CoreId) (c : CoreState) (p : BitVec 64) : Word :=
  mulPsr cfg k c (p.getLsbD 63) (p == 0#64)

/-- The end of MUL and MLA: the result, and the flags if S = 1 (42_arm_dataproc.md R193, R194). -/
def mulWrite (s : Bool) (rd : Reg) (res : Word) (cfg : Config) : CoreRule := fun k c =>
  let c1 := c.setReg rd res
  .done (if s then c1.setCpsr k (mulFlags cfg k c res) else c1)

/-- `(u(x[Rm]) * u(x[Rs])) mod 2^32` (42_arm_dataproc.md R193). -/
def mulProduct (c : CoreState) (rs rm : Reg) : Word := c.reg rm * c.reg rs

/-- MUL (42_arm_dataproc.md R193). -/
def mulRule (s : Bool) (rd rs rm : Reg) (cfg : Config) : CoreRule := fun k c =>
  mulWrite s rd (mulProduct c rs rm) cfg k c

/-- MLA (42_arm_dataproc.md R194). -/
def mlaRule (s : Bool) (rd rn rs rm : Reg) (cfg : Config) : CoreRule := fun k c =>
  mulWrite s rd (mulProduct c rs rm + c.reg rn) cfg k c

/-- A 64-bit value from its high and low words (42_arm_dataproc.md R196). -/
def pair (hi lo : Word) : BitVec 64 := hi ++ lo

/-- `u(x) * u(y)` as 64 bits (42_arm_dataproc.md R195). -/
def umul64 (x y : Word) : BitVec 64 := x.setWidth 64 * y.setWidth 64

/-- `s(x) * s(y)` as 64 bits, two's complement (42_arm_dataproc.md R197). -/
def smul64 (x y : Word) : BitVec 64 := BitVec.ofInt 64 (x.toInt * y.toInt)

/-- RdLo, then RdHi (42_arm_dataproc.md R195). -/
def CoreState.setPair (c : CoreState) (rdHi rdLo : Reg) (p : BitVec 64) : CoreState :=
  (c.setReg rdLo (p.extractLsb' 0 32)).setReg rdHi (p.extractLsb' 32 32)

/-- The end of a long multiply: the registers, then the flags if S = 1 (42_arm_dataproc.md R195). -/
def mullWrite (s : Bool) (rdHi rdLo : Reg) (p : BitVec 64) (cfg : Config) : CoreRule := fun k c =>
  let c1 := c.setPair rdHi rdLo p
  .done (if s then c1.setCpsr k (mullFlags cfg k c p) else c1)

/-- UMULL (42_arm_dataproc.md R195). -/
def umullRule (s : Bool) (rdHi rdLo rs rm : Reg) (cfg : Config) : CoreRule := fun k c =>
  mullWrite s rdHi rdLo (umul64 (c.reg rm) (c.reg rs)) cfg k c

/-- UMLAL (42_arm_dataproc.md R196). -/
def umlalRule (s : Bool) (rdHi rdLo rs rm : Reg) (cfg : Config) : CoreRule := fun k c =>
  mullWrite s rdHi rdLo (umul64 (c.reg rm) (c.reg rs) + pair (c.reg rdHi) (c.reg rdLo)) cfg k c

/-- SMULL (42_arm_dataproc.md R197). -/
def smullRule (s : Bool) (rdHi rdLo rs rm : Reg) (cfg : Config) : CoreRule := fun k c =>
  mullWrite s rdHi rdLo (smul64 (c.reg rm) (c.reg rs)) cfg k c

/-- SMLAL (42_arm_dataproc.md R198). -/
def smlalRule (s : Bool) (rdHi rdLo rs rm : Reg) (cfg : Config) : CoreRule := fun k c =>
  mullWrite s rdHi rdLo (smul64 (c.reg rm) (c.reg rs) + pair (c.reg rdHi) (c.reg rdLo)) cfg k c

/-- MUL (42_arm_dataproc.md R193). -/
def execMul (c : Cond) (s : Bool) (rd rs rm : Reg) (st : State) : Out :=
  runCond (.mul c s rd rs rm) c .load (onCoreCfg (mulRule s rd rs rm)) st

/-- MLA (42_arm_dataproc.md R194). -/
def execMla (c : Cond) (s : Bool) (rd rn rs rm : Reg) (st : State) : Out :=
  runCond (.mla c s rd rn rs rm) c .load (onCoreCfg (mlaRule s rd rn rs rm)) st

/-- UMULL (42_arm_dataproc.md R195). -/
def execUmull (c : Cond) (s : Bool) (rdHi rdLo rs rm : Reg) (st : State) : Out :=
  runCond (.umull c s rdHi rdLo rs rm) c .load (onCoreCfg (umullRule s rdHi rdLo rs rm)) st

/-- UMLAL (42_arm_dataproc.md R196). -/
def execUmlal (c : Cond) (s : Bool) (rdHi rdLo rs rm : Reg) (st : State) : Out :=
  runCond (.umlal c s rdHi rdLo rs rm) c .load (onCoreCfg (umlalRule s rdHi rdLo rs rm)) st

/-- SMULL (42_arm_dataproc.md R197). -/
def execSmull (c : Cond) (s : Bool) (rdHi rdLo rs rm : Reg) (st : State) : Out :=
  runCond (.smull c s rdHi rdLo rs rm) c .load (onCoreCfg (smullRule s rdHi rdLo rs rm)) st

/-- SMLAL (42_arm_dataproc.md R198). -/
def execSmlal (c : Cond) (s : Bool) (rdHi rdLo rs rm : Reg) (st : State) : Out :=
  runCond (.smlal c s rdHi rdLo rs rm) c .load (onCoreCfg (smlalRule s rdHi rdLo rs rm)) st

end Sys2Proof.Machine
end

