-- ==== Sys2Proof/Machine/Dsp.lean ====
section
/-! DEFINITION. The meanings of the ARMv5TE additions of FAST: CLZ, the saturating instructions and the signed
halfword multiplies (42_arm_dataproc.md R200 to R209). -/

namespace Sys2Proof.Machine

/-- The number of leading zero bits, 0 to 32 (42_arm_dataproc.md R200). -/
def leadingZeros (v : Word) : Nat := if v = 0#32 then 32 else 31 - v.toNat.log2

/-- CLZ (42_arm_dataproc.md R200). -/
def clzRule (rd rm : Reg) : CoreRule := fun _ c => .done (c.setReg rd (BitVec.ofNat 32 (leadingZeros (c.reg rm))))

/-- Whether an integer lies outside -2^31 .. 2^31 - 1. -/
def overflows (t : Int) : Bool := decide (t > 2147483647) || decide (t < -2147483648)

/-- `sat(t)`, as an integer (42_arm_dataproc.md R200, the paragraph after it). -/
def saturate (t : Int) : Int := if t > 2147483647 then 2147483647 else if t < -2147483648 then -2147483648 else t

/-- A 32-bit result, and Q set when `q`, never cleared (42_arm_dataproc.md R201, R205). -/
def writeSticky (rd : Reg) (res : Word) (q : Bool) : CoreRule := fun k c =>
  let c1 := c.setReg rd res
  .done (if q then c1.setCpsr k (psrSetQ c1.cpsr true) else c1)

/-- The doubled operand of QDADD and QDSUB, as an integer, before saturation (42_arm_dataproc.md R203). -/
def doubled (v : Word) : Int := 2 * v.toInt

/-- QADD (42_arm_dataproc.md R201). -/
def qaddRule (rn rd rm : Reg) : CoreRule := fun k c =>
  let t := (c.reg rm).toInt + (c.reg rn).toInt
  writeSticky rd (BitVec.ofInt 32 (saturate t)) (overflows t) k c

/-- QSUB (42_arm_dataproc.md R202). -/
def qsubRule (rn rd rm : Reg) : CoreRule := fun k c =>
  let t := (c.reg rm).toInt - (c.reg rn).toInt
  writeSticky rd (BitVec.ofInt 32 (saturate t)) (overflows t) k c

/-- QDADD (42_arm_dataproc.md R203). -/
def qdaddRule (rn rd rm : Reg) : CoreRule := fun k c =>
  let d := doubled (c.reg rn)
  let t := (c.reg rm).toInt + saturate d
  writeSticky rd (BitVec.ofInt 32 (saturate t)) (overflows d || overflows t) k c

/-- QDSUB (42_arm_dataproc.md R204). -/
def qdsubRule (rn rd rm : Reg) : CoreRule := fun k c =>
  let d := doubled (c.reg rn)
  let t := (c.reg rm).toInt - saturate d
  writeSticky rd (BitVec.ofInt 32 (saturate t)) (overflows d || overflows t) k c

/-- `Rm.x` and `Rs.y`: the top or bottom halfword as a signed integer (42_arm_dataproc.md R204, the paragraph
after it). -/
def halfword (v : Word) (top : Bool) : Int := if top then (v.extractLsb' 16 16).toInt else (v.extractLsb' 0 16).toInt

/-- SMLA<x><y> (42_arm_dataproc.md R205). -/
def smlaRule (x y : Bool) (rd rn rs rm : Reg) : CoreRule := fun k c =>
  let t := halfword (c.reg rm) x * halfword (c.reg rs) y + (c.reg rn).toInt
  writeSticky rd (BitVec.ofInt 32 t) (overflows t) k c

/-- `floor(s(x[Rm]) * s(Rs.y) / 2^16)` (42_arm_dataproc.md R206). -/
def wideProduct (v : Word) (h : Int) : Int := (v.toInt * h) / 65536

/-- SMLAW<y> (42_arm_dataproc.md R206). -/
def smlawRule (y : Bool) (rd rn rs rm : Reg) : CoreRule := fun k c =>
  let t := wideProduct (c.reg rm) (halfword (c.reg rs) y) + (c.reg rn).toInt
  writeSticky rd (BitVec.ofInt 32 t) (overflows t) k c

/-- SMULW<y> (42_arm_dataproc.md R207). -/
def smulwRule (y : Bool) (rd rs rm : Reg) : CoreRule := fun _ c =>
  .done (c.setReg rd (BitVec.ofInt 32 (wideProduct (c.reg rm) (halfword (c.reg rs) y))))

/-- SMLAL<x><y> (42_arm_dataproc.md R208). -/
def smlalXYRule (x y : Bool) (rdHi rdLo rs rm : Reg) : CoreRule := fun _ c =>
  .done (c.setPair rdHi rdLo
    (BitVec.ofInt 64 (halfword (c.reg rm) x * halfword (c.reg rs) y) + pair (c.reg rdHi) (c.reg rdLo)))

/-- SMUL<x><y> (42_arm_dataproc.md R209). -/
def smulRule (x y : Bool) (rd rs rm : Reg) : CoreRule := fun _ c =>
  .done (c.setReg rd (BitVec.ofInt 32 (halfword (c.reg rm) x * halfword (c.reg rs) y)))

/-- CLZ (42_arm_dataproc.md R200). -/
def execClz (c : Cond) (rd rm : Reg) (st : State) : Out := runCond (.clz c rd rm) c .load (onCore (clzRule rd rm)) st

/-- QADD (42_arm_dataproc.md R201). -/
def execQadd (c : Cond) (rn rd rm : Reg) (st : State) : Out :=
  runCond (.qadd c rn rd rm) c .load (onCore (qaddRule rn rd rm)) st

/-- QSUB (42_arm_dataproc.md R202). -/
def execQsub (c : Cond) (rn rd rm : Reg) (st : State) : Out :=
  runCond (.qsub c rn rd rm) c .load (onCore (qsubRule rn rd rm)) st

/-- QDADD (42_arm_dataproc.md R203). -/
def execQdadd (c : Cond) (rn rd rm : Reg) (st : State) : Out :=
  runCond (.qdadd c rn rd rm) c .load (onCore (qdaddRule rn rd rm)) st

/-- QDSUB (42_arm_dataproc.md R204). -/
def execQdsub (c : Cond) (rn rd rm : Reg) (st : State) : Out :=
  runCond (.qdsub c rn rd rm) c .load (onCore (qdsubRule rn rd rm)) st

/-- SMLA<x><y> (42_arm_dataproc.md R205). -/
def execSmlaXY (c : Cond) (x y : Bool) (rd rn rs rm : Reg) (st : State) : Out :=
  runCond (.smlaXY c x y rd rn rs rm) c .load (onCore (smlaRule x y rd rn rs rm)) st

/-- SMLAW<y> (42_arm_dataproc.md R206). -/
def execSmlawY (c : Cond) (y : Bool) (rd rn rs rm : Reg) (st : State) : Out :=
  runCond (.smlawY c y rd rn rs rm) c .load (onCore (smlawRule y rd rn rs rm)) st

/-- SMULW<y> (42_arm_dataproc.md R207). -/
def execSmulwY (c : Cond) (y : Bool) (rd rs rm : Reg) (st : State) : Out :=
  runCond (.smulwY c y rd rs rm) c .load (onCore (smulwRule y rd rs rm)) st

/-- SMLAL<x><y> (42_arm_dataproc.md R208). -/
def execSmlalXY (c : Cond) (x y : Bool) (rdHi rdLo rs rm : Reg) (st : State) : Out :=
  runCond (.smlalXY c x y rdHi rdLo rs rm) c .load (onCore (smlalXYRule x y rdHi rdLo rs rm)) st

/-- SMUL<x><y> (42_arm_dataproc.md R209). -/
def execSmulXY (c : Cond) (x y : Bool) (rd rs rm : Reg) (st : State) : Out :=
  runCond (.smulXY c x y rd rs rm) c .load (onCore (smulRule x y rd rs rm)) st

end Sys2Proof.Machine
end

