-- ==== Sys2Proof/Machine/Status.lean ====
section
/-! DEFINITION. The meanings of MRS and MSR (42_arm_dataproc.md R191, R192). -/

namespace Sys2Proof.Machine

/-- The byte mask of an MSR field mask `f s x c` (42_arm_dataproc.md R192). -/
def fieldMask (fields : BitVec 4) : Word :=
  (if fields.getLsbD 3 then 0xFF000000#32 else 0#32) ||| (if fields.getLsbD 2 then 0x00FF0000#32 else 0#32)
    ||| (if fields.getLsbD 1 then 0x0000FF00#32 else 0#32) ||| (if fields.getLsbD 0 then 0x000000FF#32 else 0#32)

/-- The bytes of cpsr that MSR may write: only the flags byte in user mode (42_arm_dataproc.md R192). -/
def msrMask (cpsr : Word) (fields : BitVec 4) : Word :=
  if psrMode? cpsr = some .usr then fieldMask fields &&& 0xFF000000#32 else fieldMask fields

/-- The cpsr value an MSR would write: the selected bytes of `v`, reserved bits 0, T unchanged
(42_arm_dataproc.md R192). -/
def msrValue (k : CoreId) (cpsr : Word) (fields : BitVec 4) (v : Word) : Word :=
  psrSetT (putMasked cpsr (msrMask cpsr fields) v &&& psrMask k) (psrT cpsr)

/-- MRS (42_arm_dataproc.md R191). -/
def mrsRule (spsr : Bool) (rd : Reg) : CoreRule := fun _ c =>
  .done (c.setReg rd (if spsr then c.getSpsr else c.cpsr))

/-- MSR to cpsr: an illegal mode stops, and a change of mode re-fetches at `A + 4` (42_arm_dataproc.md R192). -/
def msrCpsr (fields : BitVec 4) (v : Word) : CoreRule := fun k c =>
  let new := msrValue k c.cpsr fields v
  if psrLegal new then
    let c1 := c.setCpsr k new
    .done (if psrM new = psrM c.cpsr then c1 else c1.writePc (c.instrAddr + 4#32))
  else .stop ⟨.illegalMode, new, c.instrAddr⟩ c

/-- MSR to the current spsr, a no-op in USR and SYS (42_arm_dataproc.md R192, 10_state.md R26). -/
def msrSpsr (fields : BitVec 4) (v : Word) : CoreRule := fun k c =>
  .done (c.setSpsr k (putMasked c.getSpsr (fieldMask fields) v))

/-- MSR (42_arm_dataproc.md R192). -/
def msrRule (spsr : Bool) (fields : BitVec 4) (operand : CoreState → Word) : CoreRule := fun k c =>
  if spsr then msrSpsr fields (operand c) k c else msrCpsr fields (operand c) k c

/-- MRS (42_arm_dataproc.md R191). -/
def execMrs (c : Cond) (spsr : Bool) (rd : Reg) (st : State) : Out :=
  runCond (.mrs c spsr rd) c .load (onCore (mrsRule spsr rd)) st

/-- MSR with a register operand (42_arm_dataproc.md R192). -/
def execMsrReg (c : Cond) (spsr : Bool) (fields : BitVec 4) (rm : Reg) (st : State) : Out :=
  runCond (.msrReg c spsr fields rm) c .load (onCore (msrRule spsr fields fun x => x.reg rm)) st

/-- MSR with an immediate operand (42_arm_dataproc.md R192). -/
def execMsrImm (c : Cond) (spsr : Bool) (fields : BitVec 4) (rot : BitVec 4) (imm8 : BitVec 8) (st : State) : Out :=
  runCond (.msrImm c spsr fields rot imm8) c .load (onCore (msrRule spsr fields fun _ => rotatedImm rot imm8)) st

end Sys2Proof.Machine
end

