-- ==== Sys2Proof/Machine/ThumbAlu.lean ====
section
/-! DEFINITION. The meanings of Thumb formats 1 to 5 without the branches, 12 and 13 (45_thumb.md R266 to R295, R315 to
R318).  Thumb instructions have no condition test (R265). -/

namespace Sys2Proof.Machine

/-- A logical result with the shifter's carry-out, written to a low register with its flags (45_thumb.md R266). -/
def thumbLogical (rd : LoReg) (r : Word × Option Bool) : CoreRule := fun k c =>
  .done ((c.setReg (loReg rd) r.1).setCpsr k (updateLogical c.cpsr r.1 r.2))

/-- Format 1 (45_thumb.md R266 to R268). -/
def thumbShiftRule (ty : ShiftType) (imm5 : BitVec 5) (rs rd : LoReg) : CoreRule := fun k c =>
  thumbLogical rd (shiftOp ty (c.reg (loReg rs)) imm5.toNat (psrC c.cpsr)) k c

/-- An operation of data processing on operands `a` and `b`, its result written to a low register with its flags
(45_thumb.md R269 to R292). -/
def thumbDpRule (op : DpOp) (rd : LoReg) (a b : CoreState → Word) : CoreRule := fun k c =>
  let r := dpCompute op c.cpsr (a c) (b c) none
  .done ((c.setReg (loReg rd) r.1).setCpsr k r.2)

/-- An operation of data processing on operands `a` and `b`, flags only (45_thumb.md R274, R285, R287, R288). -/
def thumbTestRule (op : DpOp) (a b : CoreState → Word) : CoreRule := fun k c =>
  .done (c.setCpsr k (dpCompute op c.cpsr (a c) (b c) none).2)

/-- The value of a low register, as an operand. -/
def lo (r : LoReg) (c : CoreState) : Word := c.reg (loReg r)

/-- A constant operand. -/
def const (v : Word) (_ : CoreState) : Word := v

/-- A shift by a register of format 4 (45_thumb.md R279 to R281, R284). -/
def thumbShiftRegRule (ty : ShiftType) (rs rd : LoReg) : CoreRule := fun k c =>
  thumbLogical rd (shiftReg ty (lo rd c) ((lo rs c).extractLsb' 0 8).toNat (psrC c.cpsr)) k c

/-- MUL of format 4 (45_thumb.md R290). -/
def thumbMulRule (rs rd : LoReg) (cfg : Config) : CoreRule := fun k c =>
  let r := lo rd c * lo rs c
  .done ((c.setReg (loReg rd) r).setCpsr k (mulFlags cfg k c r))

/-- ADD of format 5; Rd = 15 is a branch in Thumb state (45_thumb.md R293). -/
def thumbAddHiRule (rd rm : Reg) : CoreRule := fun _ c => .done (c.setReg rd (c.reg rd + c.reg rm))

/-- MOV of format 5; Rd = 15 is a branch in Thumb state (45_thumb.md R295). -/
def thumbMovHiRule (rd rm : Reg) : CoreRule := fun _ c => .done (c.setReg rd (c.reg rm))

/-- A register write without flags. -/
def thumbSetRule (rd : Reg) (v : CoreState → Word) : CoreRule := fun _ c => .done (c.setReg rd (v c))

/-- `(A + 4) & ~3`: the program counter as formats 6 and 12 see it (45_thumb.md R327). -/
def CoreState.thumbPc (c : CoreState) : Word := alignWord (c.instrAddr + 4#32)

/-- LSL Rd, Rs, #imm5 (45_thumb.md R266). -/
def execTLslImm (imm5 : BitVec 5) (rs rd : LoReg) (st : State) : Out :=
  runAlways (.tLslImm imm5 rs rd) .load (onCore (thumbShiftRule .lsl imm5 rs rd)) st

/-- LSR Rd, Rs, #imm5 (45_thumb.md R267). -/
def execTLsrImm (imm5 : BitVec 5) (rs rd : LoReg) (st : State) : Out :=
  runAlways (.tLsrImm imm5 rs rd) .load (onCore (thumbShiftRule .lsr imm5 rs rd)) st

/-- ASR Rd, Rs, #imm5 (45_thumb.md R268). -/
def execTAsrImm (imm5 : BitVec 5) (rs rd : LoReg) (st : State) : Out :=
  runAlways (.tAsrImm imm5 rs rd) .load (onCore (thumbShiftRule .asr imm5 rs rd)) st

/-- ADD Rd, Rs, Rn (45_thumb.md R269). -/
def execTAddReg (rn rs rd : LoReg) (st : State) : Out :=
  runAlways (.tAddReg rn rs rd) .load (onCore (thumbDpRule .add rd (lo rs) (lo rn))) st

/-- SUB Rd, Rs, Rn (45_thumb.md R270). -/
def execTSubReg (rn rs rd : LoReg) (st : State) : Out :=
  runAlways (.tSubReg rn rs rd) .load (onCore (thumbDpRule .sub rd (lo rs) (lo rn))) st

/-- ADD Rd, Rs, #imm3 (45_thumb.md R271). -/
def execTAddImm3 (imm3 : BitVec 3) (rs rd : LoReg) (st : State) : Out :=
  runAlways (.tAddImm3 imm3 rs rd) .load (onCore (thumbDpRule .add rd (lo rs) (const (imm3.setWidth 32)))) st

/-- SUB Rd, Rs, #imm3 (45_thumb.md R272). -/
def execTSubImm3 (imm3 : BitVec 3) (rs rd : LoReg) (st : State) : Out :=
  runAlways (.tSubImm3 imm3 rs rd) .load (onCore (thumbDpRule .sub rd (lo rs) (const (imm3.setWidth 32)))) st

/-- MOV Rd, #imm8 (45_thumb.md R273). -/
def execTMovImm8 (rd : LoReg) (imm8 : BitVec 8) (st : State) : Out :=
  runAlways (.tMovImm8 rd imm8) .load (onCore (thumbDpRule .mov rd (const 0#32) (const (imm8.setWidth 32)))) st

/-- CMP Rd, #imm8 (45_thumb.md R274). -/
def execTCmpImm8 (rd : LoReg) (imm8 : BitVec 8) (st : State) : Out :=
  runAlways (.tCmpImm8 rd imm8) .load (onCore (thumbTestRule .cmp (lo rd) (const (imm8.setWidth 32)))) st

/-- ADD Rd, #imm8 (45_thumb.md R275). -/
def execTAddImm8 (rd : LoReg) (imm8 : BitVec 8) (st : State) : Out :=
  runAlways (.tAddImm8 rd imm8) .load (onCore (thumbDpRule .add rd (lo rd) (const (imm8.setWidth 32)))) st

/-- SUB Rd, #imm8 (45_thumb.md R276). -/
def execTSubImm8 (rd : LoReg) (imm8 : BitVec 8) (st : State) : Out :=
  runAlways (.tSubImm8 rd imm8) .load (onCore (thumbDpRule .sub rd (lo rd) (const (imm8.setWidth 32)))) st

/-- AND Rd, Rs (45_thumb.md R277). -/
def execTAndAlu (rs rd : LoReg) (st : State) : Out :=
  runAlways (.tAndAlu rs rd) .load (onCore (thumbDpRule .and rd (lo rd) (lo rs))) st

/-- EOR Rd, Rs (45_thumb.md R278). -/
def execTEorAlu (rs rd : LoReg) (st : State) : Out :=
  runAlways (.tEorAlu rs rd) .load (onCore (thumbDpRule .eor rd (lo rd) (lo rs))) st

/-- LSL Rd, Rs (45_thumb.md R279). -/
def execTLslAlu (rs rd : LoReg) (st : State) : Out :=
  runAlways (.tLslAlu rs rd) .load (onCore (thumbShiftRegRule .lsl rs rd)) st

/-- LSR Rd, Rs (45_thumb.md R280). -/
def execTLsrAlu (rs rd : LoReg) (st : State) : Out :=
  runAlways (.tLsrAlu rs rd) .load (onCore (thumbShiftRegRule .lsr rs rd)) st

/-- ASR Rd, Rs (45_thumb.md R281). -/
def execTAsrAlu (rs rd : LoReg) (st : State) : Out :=
  runAlways (.tAsrAlu rs rd) .load (onCore (thumbShiftRegRule .asr rs rd)) st

/-- ADC Rd, Rs (45_thumb.md R282). -/
def execTAdcAlu (rs rd : LoReg) (st : State) : Out :=
  runAlways (.tAdcAlu rs rd) .load (onCore (thumbDpRule .adc rd (lo rd) (lo rs))) st

/-- SBC Rd, Rs (45_thumb.md R283). -/
def execTSbcAlu (rs rd : LoReg) (st : State) : Out :=
  runAlways (.tSbcAlu rs rd) .load (onCore (thumbDpRule .sbc rd (lo rd) (lo rs))) st

/-- ROR Rd, Rs (45_thumb.md R284). -/
def execTRorAlu (rs rd : LoReg) (st : State) : Out :=
  runAlways (.tRorAlu rs rd) .load (onCore (thumbShiftRegRule .ror rs rd)) st

/-- TST Rd, Rs (45_thumb.md R285). -/
def execTTstAlu (rs rd : LoReg) (st : State) : Out :=
  runAlways (.tTstAlu rs rd) .load (onCore (thumbTestRule .tst (lo rd) (lo rs))) st

/-- NEG Rd, Rs (45_thumb.md R286). -/
def execTNegAlu (rs rd : LoReg) (st : State) : Out :=
  runAlways (.tNegAlu rs rd) .load (onCore (thumbDpRule .sub rd (const 0#32) (lo rs))) st

/-- CMP Rd, Rs (45_thumb.md R287). -/
def execTCmpAlu (rs rd : LoReg) (st : State) : Out :=
  runAlways (.tCmpAlu rs rd) .load (onCore (thumbTestRule .cmp (lo rd) (lo rs))) st

/-- CMN Rd, Rs (45_thumb.md R288). -/
def execTCmnAlu (rs rd : LoReg) (st : State) : Out :=
  runAlways (.tCmnAlu rs rd) .load (onCore (thumbTestRule .cmn (lo rd) (lo rs))) st

/-- ORR Rd, Rs (45_thumb.md R289). -/
def execTOrrAlu (rs rd : LoReg) (st : State) : Out :=
  runAlways (.tOrrAlu rs rd) .load (onCore (thumbDpRule .orr rd (lo rd) (lo rs))) st

/-- MUL Rd, Rs (45_thumb.md R290). -/
def execTMulAlu (rs rd : LoReg) (st : State) : Out :=
  runAlways (.tMulAlu rs rd) .load (onCoreCfg (thumbMulRule rs rd)) st

/-- BIC Rd, Rs (45_thumb.md R291). -/
def execTBicAlu (rs rd : LoReg) (st : State) : Out :=
  runAlways (.tBicAlu rs rd) .load (onCore (thumbDpRule .bic rd (lo rd) (lo rs))) st

/-- MVN Rd, Rs (45_thumb.md R292). -/
def execTMvnAlu (rs rd : LoReg) (st : State) : Out :=
  runAlways (.tMvnAlu rs rd) .load (onCore (thumbDpRule .mvn rd (const 0#32) (lo rs))) st

/-- ADD Rd, Rm with high registers (45_thumb.md R293). -/
def execTAddHi (rd rm : Reg) (st : State) : Out :=
  runAlways (.tAddHi rd rm) .load (onCore (thumbAddHiRule rd rm)) st

/-- CMP Rd, Rm with high registers (45_thumb.md R294). -/
def execTCmpHi (rd rm : Reg) (st : State) : Out :=
  runAlways (.tCmpHi rd rm) .load (onCore (thumbTestRule .cmp (fun c => c.reg rd) (fun c => c.reg rm))) st

/-- MOV Rd, Rm with high registers (45_thumb.md R295). -/
def execTMovHi (rd rm : Reg) (st : State) : Out :=
  runAlways (.tMovHi rd rm) .load (onCore (thumbMovHiRule rd rm)) st

/-- ADD Rd, PC, #imm8*4 (45_thumb.md R315). -/
def execTAddPc (rd : LoReg) (imm8 : BitVec 8) (st : State) : Out :=
  runAlways (.tAddPc rd imm8) .load (onCore (thumbSetRule (loReg rd) fun c => c.thumbPc + scaled8 imm8)) st

/-- ADD Rd, SP, #imm8*4 (45_thumb.md R316). -/
def execTAddSp (rd : LoReg) (imm8 : BitVec 8) (st : State) : Out :=
  runAlways (.tAddSp rd imm8) .load (onCore (thumbSetRule (loReg rd) fun c => c.reg .r13 + scaled8 imm8)) st

/-- ADD SP, #imm7*4 (45_thumb.md R317). -/
def execTIncSp (imm7 : BitVec 7) (st : State) : Out :=
  runAlways (.tIncSp imm7) .load (onCore (thumbSetRule .r13 fun c => c.reg .r13 + scaled7 imm7)) st

/-- SUB SP, #imm7*4 (45_thumb.md R318). -/
def execTDecSp (imm7 : BitVec 7) (st : State) : Out :=
  runAlways (.tDecSp imm7) .load (onCore (thumbSetRule .r13 fun c => c.reg .r13 - scaled7 imm7)) st

end Sys2Proof.Machine
end

