-- ==== Sys2Proof/Machine/ThumbBranch.lean ====
section
/-! DEFINITION. The meanings of the Thumb branches and SWI: the branches of format 5, and formats 16 to 19
(45_thumb.md R296, R297, R323 to R325, R343 to R345). -/

namespace Sys2Proof.Machine

/-- The return address of a Thumb call: `(A + 2) | 1` (45_thumb.md R297, R344, R345). -/
def CoreState.thumbLink (c : CoreState) : Word := (c.instrAddr + 2#32) ||| 1#32

/-- B<cond>: its own condition test; a branch not taken does nothing (45_thumb.md R323). -/
def thumbCondRule (cond : Cond) (off : Word) : CoreRule := fun k c =>
  if checkCondition cond c.cpsr then branchRule off k c else .done c

/-- The BL/BLX prefix: r14 only (45_thumb.md R343). -/
def blPrefixRule (off : Word) : CoreRule := fun _ c => .done (c.setReg .r14 (c.reg .r15 + off))

/-- The BL suffix (45_thumb.md R344). -/
def blSuffixRule (off : Word) : CoreRule := fun _ c =>
  .done ((c.setReg .r14 c.thumbLink).writePc (c.reg .r14 + off))

/-- The BLX suffix: ARM state at the word-aligned target (45_thumb.md R345). -/
def blxSuffixRule (off : Word) : CoreRule := fun k c =>
  let c1 := c.setReg .r14 c.thumbLink
  .done ((c1.setCpsr k (psrSetT c1.cpsr false)).writePc (c.reg .r14 + off))

/-- BX Rm (45_thumb.md R296). -/
def execTBx (rm : Reg) (st : State) : Out :=
  runAlways (.tBx rm) .load (onCore (bxRule rm)) st

/-- BLX Rm (45_thumb.md R297). -/
def execTBlxReg (rm : Reg) (st : State) : Out :=
  runAlways (.tBlxReg rm) .load (onCore (blxRule rm CoreState.thumbLink)) st

/-- B<cond> (45_thumb.md R323). -/
def execTBCond (c : Cond) (off : BitVec 8) (st : State) : Out :=
  runAlways (.tBCond c off) .load (onCore (thumbCondRule c (thumbCondOffset off))) st

/-- SWI (45_thumb.md R324). -/
def execTSwi (n : BitVec 8) (st : State) : Out :=
  runAlways (.tSwi n) .load (swiRule n) st

/-- B (45_thumb.md R325). -/
def execTB (off : BitVec 11) (st : State) : Out :=
  runAlways (.tB off) .load (onCore (branchRule (thumbOffset off))) st

/-- The BL/BLX prefix (45_thumb.md R343). -/
def execTBlPrefix (off : BitVec 11) (st : State) : Out :=
  runAlways (.tBlPrefix off) .load (onCore (blPrefixRule (blPrefixOffset off))) st

/-- The BL suffix (45_thumb.md R344). -/
def execTBlSuffix (off : BitVec 11) (st : State) : Out :=
  runAlways (.tBlSuffix off) .load (onCore (blSuffixRule (blSuffixOffset off))) st

/-- The BLX suffix; `off` is h[10:1] (45_thumb.md R345). -/
def execTBlxSuffix (off : BitVec 10) (st : State) : Out :=
  runAlways (.tBlxSuffix off) .load (onCore (blxSuffixRule (blSuffixOffset (off ++ 0#1)))) st

end Sys2Proof.Machine
end

