-- ==== Sys2Proof/Machine/ThumbMem.lean ====
section
/-! DEFINITION. The meanings of the Thumb loads, stores and multiple transfers: formats 6 to 11, 14 and 15
(45_thumb.md R298 to R314, R319 to R322). -/

namespace Sys2Proof.Machine

/-- A Thumb load: the access, then the staging of Rd (45_thumb.md R265). -/
def thumbLoadRule (ld : Loader) (rd : LoReg) (addr : CoreState → Word) : Rule := fun k s =>
  let a := addr s.cur
  let r := ld k s a
  .done (r.2.stageReg (loReg rd) a r.1)

/-- A Thumb store (45_thumb.md R265). -/
def thumbStoreRule (st : Storer) (rd : LoReg) (addr : CoreState → Word) : Rule := fun _ s =>
  let a := addr s.cur
  .done ((st s a (s.cur.reg (loReg rd))).onCur fun c => c.recordAddr (loReg rd) a)

/-- The address `x[Rb] + x[Ro]` of formats 7 and 8 (45_thumb.md R299, R303). -/
def addrRegReg (ro rb : LoReg) (c : CoreState) : Word := c.reg (loReg rb) + c.reg (loReg ro)

/-- The address of a base register and a constant (45_thumb.md R307, R311, R313). -/
def addrRegImm (rb : Reg) (off : Word) (c : CoreState) : Word := c.reg rb + off

/-- The list of PUSH: the low registers, and r14 (45_thumb.md R319). -/
def pushList (lr : Bool) (list : BitVec 8) : BitVec 16 := 0#1 ++ BitVec.ofBool lr ++ 0#6 ++ list

/-- The list of POP: the low registers, and r15 (45_thumb.md R320). -/
def popList (pc : Bool) (list : BitVec 8) : BitVec 16 := BitVec.ofBool pc ++ 0#7 ++ list

/-- PUSH: the stores from `x[13] - 4n` up, then r13 (45_thumb.md R319). -/
def pushRule (list : BitVec 16) : Rule := fun _ s =>
  let base := s.cur.reg .r13 - listSpan list
  .done ((storeMany (fun i => s.cur.reg i) (regsOf list) (alignWord base) s).onCur fun c => c.setReg .r13 base)

/-- POP: the loads from r13 up, staged, then r13 (45_thumb.md R320). -/
def popRule (list : BitVec 16) : Rule := fun _ s =>
  let sp := s.cur.reg .r13
  .done ((loadMany false (regsOf list) (alignWord sp) s).onCur fun c => c.setReg .r13 (sp + listSpan list))

/-- STMIA (45_thumb.md R321). -/
def thumbStmRule (rb : LoReg) (list : BitVec 16) : Rule := fun _ s =>
  let b := s.cur.reg (loReg rb)
  .done ((storeMany (fun i => s.cur.reg i) (regsOf list) (alignWord b) s).onCur fun c =>
    c.setReg (loReg rb) (b + listSpan list))

/-- LDMIA (45_thumb.md R322). -/
def thumbLdmRule (rb : LoReg) (list : BitVec 16) : Rule := fun _ s =>
  let b := s.cur.reg (loReg rb)
  .done ((loadMany false (regsOf list) (alignWord b) s).onCur fun c => c.setReg (loReg rb) (b + listSpan list))

/-- LDR Rd, [PC, #imm8*4] (45_thumb.md R298). -/
def execTLdrPc (rd : LoReg) (imm8 : BitVec 8) (st : State) : Out :=
  runAlways (.tLdrPc rd imm8) .load (thumbLoadRule loadWord rd fun c => c.thumbPc + scaled8 imm8) st

/-- STR Rd, [Rb, Ro] (45_thumb.md R299). -/
def execTStrReg (ro rb rd : LoReg) (st : State) : Out :=
  runAlways (.tStrReg ro rb rd) .load (thumbStoreRule storeWord rd (addrRegReg ro rb)) st

/-- STRB Rd, [Rb, Ro] (45_thumb.md R300). -/
def execTStrbReg (ro rb rd : LoReg) (st : State) : Out :=
  runAlways (.tStrbReg ro rb rd) .load (thumbStoreRule storeByte rd (addrRegReg ro rb)) st

/-- LDR Rd, [Rb, Ro] (45_thumb.md R301). -/
def execTLdrReg (ro rb rd : LoReg) (st : State) : Out :=
  runAlways (.tLdrReg ro rb rd) .load (thumbLoadRule loadWord rd (addrRegReg ro rb)) st

/-- LDRB Rd, [Rb, Ro] (45_thumb.md R302). -/
def execTLdrbReg (ro rb rd : LoReg) (st : State) : Out :=
  runAlways (.tLdrbReg ro rb rd) .load (thumbLoadRule loadByte rd (addrRegReg ro rb)) st

/-- STRH Rd, [Rb, Ro] (45_thumb.md R303). -/
def execTStrhReg (ro rb rd : LoReg) (st : State) : Out :=
  runAlways (.tStrhReg ro rb rd) .load (thumbStoreRule storeHalf rd (addrRegReg ro rb)) st

/-- LDRSB Rd, [Rb, Ro] (45_thumb.md R304). -/
def execTLdrsbReg (ro rb rd : LoReg) (st : State) : Out :=
  runAlways (.tLdrsbReg ro rb rd) .load (thumbLoadRule loadSignedByte rd (addrRegReg ro rb)) st

/-- LDRH Rd, [Rb, Ro] (45_thumb.md R305). -/
def execTLdrhReg (ro rb rd : LoReg) (st : State) : Out :=
  runAlways (.tLdrhReg ro rb rd) .load (thumbLoadRule loadHalf rd (addrRegReg ro rb)) st

/-- LDRSH Rd, [Rb, Ro] (45_thumb.md R306). -/
def execTLdrshReg (ro rb rd : LoReg) (st : State) : Out :=
  runAlways (.tLdrshReg ro rb rd) .load (thumbLoadRule loadSignedHalf rd (addrRegReg ro rb)) st

/-- STR Rd, [Rb, #imm5] (45_thumb.md R307). -/
def execTStrImm (imm5 : BitVec 5) (rb rd : LoReg) (st : State) : Out :=
  runAlways (.tStrImm imm5 rb rd) .load (thumbStoreRule storeWord rd (addrRegImm (loReg rb) (scaled5 imm5 2))) st

/-- LDR Rd, [Rb, #imm5] (45_thumb.md R308). -/
def execTLdrImm (imm5 : BitVec 5) (rb rd : LoReg) (st : State) : Out :=
  runAlways (.tLdrImm imm5 rb rd) .load (thumbLoadRule loadWord rd (addrRegImm (loReg rb) (scaled5 imm5 2))) st

/-- STRB Rd, [Rb, #imm5] (45_thumb.md R309). -/
def execTStrbImm (imm5 : BitVec 5) (rb rd : LoReg) (st : State) : Out :=
  runAlways (.tStrbImm imm5 rb rd) .load (thumbStoreRule storeByte rd (addrRegImm (loReg rb) (scaled5 imm5 0))) st

/-- LDRB Rd, [Rb, #imm5] (45_thumb.md R310). -/
def execTLdrbImm (imm5 : BitVec 5) (rb rd : LoReg) (st : State) : Out :=
  runAlways (.tLdrbImm imm5 rb rd) .load (thumbLoadRule loadByte rd (addrRegImm (loReg rb) (scaled5 imm5 0))) st

/-- STRH Rd, [Rb, #imm5] (45_thumb.md R311). -/
def execTStrhImm (imm5 : BitVec 5) (rb rd : LoReg) (st : State) : Out :=
  runAlways (.tStrhImm imm5 rb rd) .load (thumbStoreRule storeHalf rd (addrRegImm (loReg rb) (scaled5 imm5 1))) st

/-- LDRH Rd, [Rb, #imm5] (45_thumb.md R312). -/
def execTLdrhImm (imm5 : BitVec 5) (rb rd : LoReg) (st : State) : Out :=
  runAlways (.tLdrhImm imm5 rb rd) .load (thumbLoadRule loadHalf rd (addrRegImm (loReg rb) (scaled5 imm5 1))) st

/-- STR Rd, [SP, #imm8*4] (45_thumb.md R313). -/
def execTStrSp (rd : LoReg) (imm8 : BitVec 8) (st : State) : Out :=
  runAlways (.tStrSp rd imm8) .load (thumbStoreRule storeWord rd (addrRegImm .r13 (scaled8 imm8))) st

/-- LDR Rd, [SP, #imm8*4] (45_thumb.md R314). -/
def execTLdrSp (rd : LoReg) (imm8 : BitVec 8) (st : State) : Out :=
  runAlways (.tLdrSp rd imm8) .load (thumbLoadRule loadWord rd (addrRegImm .r13 (scaled8 imm8))) st

/-- PUSH (45_thumb.md R319). -/
def execTPush (lr : Bool) (list : BitVec 8) (st : State) : Out :=
  runAlways (.tPush lr list) .load (pushRule (pushList lr list)) st

/-- POP (45_thumb.md R320). -/
def execTPop (pc : Bool) (list : BitVec 8) (st : State) : Out :=
  runAlways (.tPop pc list) .load (popRule (popList pc list)) st

/-- STMIA Rb!, list (45_thumb.md R321). -/
def execTStmia (rb : LoReg) (list : BitVec 8) (st : State) : Out :=
  runAlways (.tStmia rb list) .load (thumbStmRule rb (list.setWidth 16)) st

/-- LDMIA Rb!, list (45_thumb.md R322). -/
def execTLdmia (rb : LoReg) (list : BitVec 8) (st : State) : Out :=
  runAlways (.tLdmia rb list) .load (thumbLdmRule rb (list.setWidth 16)) st

end Sys2Proof.Machine
end

