-- ==== Sys2Proof/Machine/Dispatch.lean ====
section
/-! DEFINITION. The dispatch of 41_pipeline.md R149: one meaning per instruction. -/

namespace Sys2Proof.Machine

def exec (i : Instr) (s : State) : Host.Outcome State Fault Refusal :=
  match i with
  | .andShiftImm c sf rn rd amount ty rm => Sys2Proof.Machine.execAndShiftImm c sf rn rd amount ty rm s
  | .andShiftReg c sf rn rd rs ty rm => Sys2Proof.Machine.execAndShiftReg c sf rn rd rs ty rm s
  | .andImm c sf rn rd rot imm8 => Sys2Proof.Machine.execAndImm c sf rn rd rot imm8 s
  | .eorShiftImm c sf rn rd amount ty rm => Sys2Proof.Machine.execEorShiftImm c sf rn rd amount ty rm s
  | .eorShiftReg c sf rn rd rs ty rm => Sys2Proof.Machine.execEorShiftReg c sf rn rd rs ty rm s
  | .eorImm c sf rn rd rot imm8 => Sys2Proof.Machine.execEorImm c sf rn rd rot imm8 s
  | .subShiftImm c sf rn rd amount ty rm => Sys2Proof.Machine.execSubShiftImm c sf rn rd amount ty rm s
  | .subShiftReg c sf rn rd rs ty rm => Sys2Proof.Machine.execSubShiftReg c sf rn rd rs ty rm s
  | .subImm c sf rn rd rot imm8 => Sys2Proof.Machine.execSubImm c sf rn rd rot imm8 s
  | .rsbShiftImm c sf rn rd amount ty rm => Sys2Proof.Machine.execRsbShiftImm c sf rn rd amount ty rm s
  | .rsbShiftReg c sf rn rd rs ty rm => Sys2Proof.Machine.execRsbShiftReg c sf rn rd rs ty rm s
  | .rsbImm c sf rn rd rot imm8 => Sys2Proof.Machine.execRsbImm c sf rn rd rot imm8 s
  | .addShiftImm c sf rn rd amount ty rm => Sys2Proof.Machine.execAddShiftImm c sf rn rd amount ty rm s
  | .addShiftReg c sf rn rd rs ty rm => Sys2Proof.Machine.execAddShiftReg c sf rn rd rs ty rm s
  | .addImm c sf rn rd rot imm8 => Sys2Proof.Machine.execAddImm c sf rn rd rot imm8 s
  | .adcShiftImm c sf rn rd amount ty rm => Sys2Proof.Machine.execAdcShiftImm c sf rn rd amount ty rm s
  | .adcShiftReg c sf rn rd rs ty rm => Sys2Proof.Machine.execAdcShiftReg c sf rn rd rs ty rm s
  | .adcImm c sf rn rd rot imm8 => Sys2Proof.Machine.execAdcImm c sf rn rd rot imm8 s
  | .sbcShiftImm c sf rn rd amount ty rm => Sys2Proof.Machine.execSbcShiftImm c sf rn rd amount ty rm s
  | .sbcShiftReg c sf rn rd rs ty rm => Sys2Proof.Machine.execSbcShiftReg c sf rn rd rs ty rm s
  | .sbcImm c sf rn rd rot imm8 => Sys2Proof.Machine.execSbcImm c sf rn rd rot imm8 s
  | .rscShiftImm c sf rn rd amount ty rm => Sys2Proof.Machine.execRscShiftImm c sf rn rd amount ty rm s
  | .rscShiftReg c sf rn rd rs ty rm => Sys2Proof.Machine.execRscShiftReg c sf rn rd rs ty rm s
  | .rscImm c sf rn rd rot imm8 => Sys2Proof.Machine.execRscImm c sf rn rd rot imm8 s
  | .tstShiftImm c rn amount ty rm => Sys2Proof.Machine.execTstShiftImm c rn amount ty rm s
  | .tstShiftReg c rn rs ty rm => Sys2Proof.Machine.execTstShiftReg c rn rs ty rm s
  | .tstImm c rn rot imm8 => Sys2Proof.Machine.execTstImm c rn rot imm8 s
  | .teqShiftImm c rn amount ty rm => Sys2Proof.Machine.execTeqShiftImm c rn amount ty rm s
  | .teqShiftReg c rn rs ty rm => Sys2Proof.Machine.execTeqShiftReg c rn rs ty rm s
  | .teqImm c rn rot imm8 => Sys2Proof.Machine.execTeqImm c rn rot imm8 s
  | .cmpShiftImm c rn amount ty rm => Sys2Proof.Machine.execCmpShiftImm c rn amount ty rm s
  | .cmpShiftReg c rn rs ty rm => Sys2Proof.Machine.execCmpShiftReg c rn rs ty rm s
  | .cmpImm c rn rot imm8 => Sys2Proof.Machine.execCmpImm c rn rot imm8 s
  | .cmnShiftImm c rn amount ty rm => Sys2Proof.Machine.execCmnShiftImm c rn amount ty rm s
  | .cmnShiftReg c rn rs ty rm => Sys2Proof.Machine.execCmnShiftReg c rn rs ty rm s
  | .cmnImm c rn rot imm8 => Sys2Proof.Machine.execCmnImm c rn rot imm8 s
  | .orrShiftImm c sf rn rd amount ty rm => Sys2Proof.Machine.execOrrShiftImm c sf rn rd amount ty rm s
  | .orrShiftReg c sf rn rd rs ty rm => Sys2Proof.Machine.execOrrShiftReg c sf rn rd rs ty rm s
  | .orrImm c sf rn rd rot imm8 => Sys2Proof.Machine.execOrrImm c sf rn rd rot imm8 s
  | .movShiftImm c sf rd amount ty rm => Sys2Proof.Machine.execMovShiftImm c sf rd amount ty rm s
  | .movShiftReg c sf rd rs ty rm => Sys2Proof.Machine.execMovShiftReg c sf rd rs ty rm s
  | .movImm c sf rd rot imm8 => Sys2Proof.Machine.execMovImm c sf rd rot imm8 s
  | .bicShiftImm c sf rn rd amount ty rm => Sys2Proof.Machine.execBicShiftImm c sf rn rd amount ty rm s
  | .bicShiftReg c sf rn rd rs ty rm => Sys2Proof.Machine.execBicShiftReg c sf rn rd rs ty rm s
  | .bicImm c sf rn rd rot imm8 => Sys2Proof.Machine.execBicImm c sf rn rd rot imm8 s
  | .mvnShiftImm c sf rd amount ty rm => Sys2Proof.Machine.execMvnShiftImm c sf rd amount ty rm s
  | .mvnShiftReg c sf rd rs ty rm => Sys2Proof.Machine.execMvnShiftReg c sf rd rs ty rm s
  | .mvnImm c sf rd rot imm8 => Sys2Proof.Machine.execMvnImm c sf rd rot imm8 s
  | .mrs c spsr rd => Sys2Proof.Machine.execMrs c spsr rd s
  | .msrReg c spsr fields rm => Sys2Proof.Machine.execMsrReg c spsr fields rm s
  | .msrImm c spsr fields rot imm8 => Sys2Proof.Machine.execMsrImm c spsr fields rot imm8 s
  | .mul c sf rd rs rm => Sys2Proof.Machine.execMul c sf rd rs rm s
  | .mla c sf rd rn rs rm => Sys2Proof.Machine.execMla c sf rd rn rs rm s
  | .umull c sf rdHi rdLo rs rm => Sys2Proof.Machine.execUmull c sf rdHi rdLo rs rm s
  | .umlal c sf rdHi rdLo rs rm => Sys2Proof.Machine.execUmlal c sf rdHi rdLo rs rm s
  | .smull c sf rdHi rdLo rs rm => Sys2Proof.Machine.execSmull c sf rdHi rdLo rs rm s
  | .smlal c sf rdHi rdLo rs rm => Sys2Proof.Machine.execSmlal c sf rdHi rdLo rs rm s
  | .clz c rd rm => Sys2Proof.Machine.execClz c rd rm s
  | .qadd c rn rd rm => Sys2Proof.Machine.execQadd c rn rd rm s
  | .qsub c rn rd rm => Sys2Proof.Machine.execQsub c rn rd rm s
  | .qdadd c rn rd rm => Sys2Proof.Machine.execQdadd c rn rd rm s
  | .qdsub c rn rd rm => Sys2Proof.Machine.execQdsub c rn rd rm s
  | .smlaXY c x y rd rn rs rm => Sys2Proof.Machine.execSmlaXY c x y rd rn rs rm s
  | .smlawY c y rd rn rs rm => Sys2Proof.Machine.execSmlawY c y rd rn rs rm s
  | .smulwY c y rd rs rm => Sys2Proof.Machine.execSmulwY c y rd rs rm s
  | .smlalXY c x y rdHi rdLo rs rm => Sys2Proof.Machine.execSmlalXY c x y rdHi rdLo rs rm s
  | .smulXY c x y rd rs rm => Sys2Proof.Machine.execSmulXY c x y rd rs rm s
  | .ldrImm c mode up rn rd imm12 => Sys2Proof.Machine.execLdrImm c mode up rn rd imm12 s
  | .ldrReg c mode up rn rd amount ty rm => Sys2Proof.Machine.execLdrReg c mode up rn rd amount ty rm s
  | .strImm c mode up rn rd imm12 => Sys2Proof.Machine.execStrImm c mode up rn rd imm12 s
  | .strReg c mode up rn rd amount ty rm => Sys2Proof.Machine.execStrReg c mode up rn rd amount ty rm s
  | .ldrbImm c mode up rn rd imm12 => Sys2Proof.Machine.execLdrbImm c mode up rn rd imm12 s
  | .ldrbReg c mode up rn rd amount ty rm => Sys2Proof.Machine.execLdrbReg c mode up rn rd amount ty rm s
  | .strbImm c mode up rn rd imm12 => Sys2Proof.Machine.execStrbImm c mode up rn rd imm12 s
  | .strbReg c mode up rn rd amount ty rm => Sys2Proof.Machine.execStrbReg c mode up rn rd amount ty rm s
  | .ldrtImm c up rn rd imm12 => Sys2Proof.Machine.execLdrtImm c up rn rd imm12 s
  | .ldrtReg c up rn rd amount ty rm => Sys2Proof.Machine.execLdrtReg c up rn rd amount ty rm s
  | .strtImm c up rn rd imm12 => Sys2Proof.Machine.execStrtImm c up rn rd imm12 s
  | .strtReg c up rn rd amount ty rm => Sys2Proof.Machine.execStrtReg c up rn rd amount ty rm s
  | .ldrbtImm c up rn rd imm12 => Sys2Proof.Machine.execLdrbtImm c up rn rd imm12 s
  | .ldrbtReg c up rn rd amount ty rm => Sys2Proof.Machine.execLdrbtReg c up rn rd amount ty rm s
  | .strbtImm c up rn rd imm12 => Sys2Proof.Machine.execStrbtImm c up rn rd imm12 s
  | .strbtReg c up rn rd amount ty rm => Sys2Proof.Machine.execStrbtReg c up rn rd amount ty rm s
  | .ldrh c mode up rn rd off => Sys2Proof.Machine.execLdrh c mode up rn rd off s
  | .strh c mode up rn rd off => Sys2Proof.Machine.execStrh c mode up rn rd off s
  | .ldrsb c mode up rn rd off => Sys2Proof.Machine.execLdrsb c mode up rn rd off s
  | .ldrsh c mode up rn rd off => Sys2Proof.Machine.execLdrsh c mode up rn rd off s
  | .ldrd c mode up rn rd off => Sys2Proof.Machine.execLdrd c mode up rn rd off s
  | .strd c mode up rn rd off => Sys2Proof.Machine.execStrd c mode up rn rd off s
  | .ldm c bm sf w rn list => Sys2Proof.Machine.execLdm c bm sf w rn list s
  | .stm c bm sf w rn list => Sys2Proof.Machine.execStm c bm sf w rn list s
  | .swp c rn rd rm => Sys2Proof.Machine.execSwp c rn rd rm s
  | .swpb c rn rd rm => Sys2Proof.Machine.execSwpb c rn rd rm s
  | .pld regOff up rn off => Sys2Proof.Machine.execPld regOff up rn off s
  | .b c off => Sys2Proof.Machine.execB c off s
  | .bl c off => Sys2Proof.Machine.execBl c off s
  | .bx c rm => Sys2Proof.Machine.execBx c rm s
  | .blxImm h off => Sys2Proof.Machine.execBlxImm h off s
  | .blxReg c rm => Sys2Proof.Machine.execBlxReg c rm s
  | .swi c comment => Sys2Proof.Machine.execSwi c comment s
  | .bkpt imm16 => Sys2Proof.Machine.execBkpt imm16 s
  | .mcr c op1 crn rd op2 crm => Sys2Proof.Machine.execMcr c op1 crn rd op2 crm s
  | .mrc c op1 crn rd op2 crm => Sys2Proof.Machine.execMrc c op1 crn rd op2 crm s
  | .tLslImm imm5 rs rd => Sys2Proof.Machine.execTLslImm imm5 rs rd s
  | .tLsrImm imm5 rs rd => Sys2Proof.Machine.execTLsrImm imm5 rs rd s
  | .tAsrImm imm5 rs rd => Sys2Proof.Machine.execTAsrImm imm5 rs rd s
  | .tAddReg rn rs rd => Sys2Proof.Machine.execTAddReg rn rs rd s
  | .tSubReg rn rs rd => Sys2Proof.Machine.execTSubReg rn rs rd s
  | .tAddImm3 imm3 rs rd => Sys2Proof.Machine.execTAddImm3 imm3 rs rd s
  | .tSubImm3 imm3 rs rd => Sys2Proof.Machine.execTSubImm3 imm3 rs rd s
  | .tMovImm8 rd imm8 => Sys2Proof.Machine.execTMovImm8 rd imm8 s
  | .tCmpImm8 rd imm8 => Sys2Proof.Machine.execTCmpImm8 rd imm8 s
  | .tAddImm8 rd imm8 => Sys2Proof.Machine.execTAddImm8 rd imm8 s
  | .tSubImm8 rd imm8 => Sys2Proof.Machine.execTSubImm8 rd imm8 s
  | .tAndAlu rs rd => Sys2Proof.Machine.execTAndAlu rs rd s
  | .tEorAlu rs rd => Sys2Proof.Machine.execTEorAlu rs rd s
  | .tLslAlu rs rd => Sys2Proof.Machine.execTLslAlu rs rd s
  | .tLsrAlu rs rd => Sys2Proof.Machine.execTLsrAlu rs rd s
  | .tAsrAlu rs rd => Sys2Proof.Machine.execTAsrAlu rs rd s
  | .tAdcAlu rs rd => Sys2Proof.Machine.execTAdcAlu rs rd s
  | .tSbcAlu rs rd => Sys2Proof.Machine.execTSbcAlu rs rd s
  | .tRorAlu rs rd => Sys2Proof.Machine.execTRorAlu rs rd s
  | .tTstAlu rs rd => Sys2Proof.Machine.execTTstAlu rs rd s
  | .tNegAlu rs rd => Sys2Proof.Machine.execTNegAlu rs rd s
  | .tCmpAlu rs rd => Sys2Proof.Machine.execTCmpAlu rs rd s
  | .tCmnAlu rs rd => Sys2Proof.Machine.execTCmnAlu rs rd s
  | .tOrrAlu rs rd => Sys2Proof.Machine.execTOrrAlu rs rd s
  | .tMulAlu rs rd => Sys2Proof.Machine.execTMulAlu rs rd s
  | .tBicAlu rs rd => Sys2Proof.Machine.execTBicAlu rs rd s
  | .tMvnAlu rs rd => Sys2Proof.Machine.execTMvnAlu rs rd s
  | .tAddHi rd rm => Sys2Proof.Machine.execTAddHi rd rm s
  | .tCmpHi rd rm => Sys2Proof.Machine.execTCmpHi rd rm s
  | .tMovHi rd rm => Sys2Proof.Machine.execTMovHi rd rm s
  | .tBx rm => Sys2Proof.Machine.execTBx rm s
  | .tBlxReg rm => Sys2Proof.Machine.execTBlxReg rm s
  | .tLdrPc rd imm8 => Sys2Proof.Machine.execTLdrPc rd imm8 s
  | .tStrReg ro rb rd => Sys2Proof.Machine.execTStrReg ro rb rd s
  | .tStrbReg ro rb rd => Sys2Proof.Machine.execTStrbReg ro rb rd s
  | .tLdrReg ro rb rd => Sys2Proof.Machine.execTLdrReg ro rb rd s
  | .tLdrbReg ro rb rd => Sys2Proof.Machine.execTLdrbReg ro rb rd s
  | .tStrhReg ro rb rd => Sys2Proof.Machine.execTStrhReg ro rb rd s
  | .tLdrsbReg ro rb rd => Sys2Proof.Machine.execTLdrsbReg ro rb rd s
  | .tLdrhReg ro rb rd => Sys2Proof.Machine.execTLdrhReg ro rb rd s
  | .tLdrshReg ro rb rd => Sys2Proof.Machine.execTLdrshReg ro rb rd s
  | .tStrImm imm5 rb rd => Sys2Proof.Machine.execTStrImm imm5 rb rd s
  | .tLdrImm imm5 rb rd => Sys2Proof.Machine.execTLdrImm imm5 rb rd s
  | .tStrbImm imm5 rb rd => Sys2Proof.Machine.execTStrbImm imm5 rb rd s
  | .tLdrbImm imm5 rb rd => Sys2Proof.Machine.execTLdrbImm imm5 rb rd s
  | .tStrhImm imm5 rb rd => Sys2Proof.Machine.execTStrhImm imm5 rb rd s
  | .tLdrhImm imm5 rb rd => Sys2Proof.Machine.execTLdrhImm imm5 rb rd s
  | .tStrSp rd imm8 => Sys2Proof.Machine.execTStrSp rd imm8 s
  | .tLdrSp rd imm8 => Sys2Proof.Machine.execTLdrSp rd imm8 s
  | .tAddPc rd imm8 => Sys2Proof.Machine.execTAddPc rd imm8 s
  | .tAddSp rd imm8 => Sys2Proof.Machine.execTAddSp rd imm8 s
  | .tIncSp imm7 => Sys2Proof.Machine.execTIncSp imm7 s
  | .tDecSp imm7 => Sys2Proof.Machine.execTDecSp imm7 s
  | .tPush lr list => Sys2Proof.Machine.execTPush lr list s
  | .tPop pc list => Sys2Proof.Machine.execTPop pc list s
  | .tStmia rb list => Sys2Proof.Machine.execTStmia rb list s
  | .tLdmia rb list => Sys2Proof.Machine.execTLdmia rb list s
  | .tBCond c off => Sys2Proof.Machine.execTBCond c off s
  | .tSwi n => Sys2Proof.Machine.execTSwi n s
  | .tB off => Sys2Proof.Machine.execTB off s
  | .tBlPrefix off => Sys2Proof.Machine.execTBlPrefix off s
  | .tBlSuffix off => Sys2Proof.Machine.execTBlSuffix off s
  | .tBlxSuffix off => Sys2Proof.Machine.execTBlxSuffix off s

end Sys2Proof.Machine
end

