-- ==== Sys2Proof/Machine/Pipeline.lean ====
section
/-! DEFINITION. The pipeline cycle of a core (41_pipeline.md R140 to R167) and the IRQ dispatch (60_exceptions.md
R360 to R362), on the core that holds the turn. -/

namespace Sys2Proof.Machine

/-! ## Fetch and decode -/

/-- The address and width of the next fetch (20_memory.md R71). -/
def CoreState.fetchAccess (c : CoreState) : Word × Width :=
  if psrT c.cpsr then (alignHalf c.regs.r15, .half) else (alignWord c.regs.r15, .word)

/-- `fetch(k)`: the word at r15 into the slot at the pointer, untagged, its scratch lists clear (41_pipeline.md
R144). -/
def State.fetch (s : State) : State :=
  let f := s.cur.fetchAccess
  let r := s.read f.1 f.2
  r.2.onCur fun c => c.setSlot c.ptr { Slot.empty with word := r.1, tag := .RAW }

/-- `decode(k)`: a RAW slot one stage behind the pointer gets its tag (41_pipeline.md R145). -/
def CoreState.decodeStage (c : CoreState) (k : CoreId) : CoreState :=
  let sl := c.slot c.decodeIdx
  if sl.tag = .RAW then c.setSlot c.decodeIdx { sl with tag := decodeTag k (psrT c.cpsr) sl.word } else c

/-- Fetch, then decode (41_pipeline.md R143). -/
def State.frontEnd (s : State) : State := s.fetch.onCur fun c => c.decodeStage s.turn

/-! ## Execute -/

/-- Whether a slot holds something execute dispatches: a tag other than FILLING and RAW (41_pipeline.md R149,
60_exceptions.md R377). -/
def Slot.decoded (sl : Slot) : Bool := sl.tag != .FILLING && sl.tag != .RAW

/-- Execute on a slot that is filling: the diagnostic pair and the charge of a fill (41_pipeline.md R148,
60_exceptions.md R378). -/
def State.fillStage (s : State) : State :=
  s.onCur fun c =>
    { c with dbgTag := .FILLING, dbgOperand := 0#32 }.charge (s.cfg.tickCycles s.turn .fill)

/-- The diagnostic pair of a dispatched slot (41_pipeline.md R164). -/
def State.recordDispatch (s : State) : State :=
  s.onCur fun c => { c with dbgTag := c.execSlot.tag, dbgOperand := c.execSlot.word }

/-- Execute on a slot tagged UNRECOGNIZED: in ARM state the condition test comes first, and a word whose test
fails is skipped (41_pipeline.md R149, R152). -/
def State.executeUnrecognized (s : State) : Out :=
  let c := s.cur
  if psrT c.cpsr || checkCondition (Cond.ofBits (c.execSlot.word.extractLsb' 28 4)) c.cpsr then .next s.stopUnrecognized
  else .next s.skip

/-- Execute on a decoded slot: the instruction of its word, where the slot's tag is that instruction's class
(41_pipeline.md R149). -/
def State.executeSlot (s : State) : Out :=
  let sl := s.cur.execSlot
  match decodeWord s.turn (psrT s.cur.cpsr) sl.word with
  | .ok i => if i.tag = sl.tag then exec i s else s.executeUnrecognized
  | .error _ => s.executeUnrecognized

/-! ## Interrupt dispatch -/

/-- NIA, the address of the next instruction at the dispatch point (60_exceptions.md R362). -/
def CoreState.nextInstr (c : CoreState) : Word := if c.needsFlush then c.regs.r15 else c.regs.r15 - c.width

/-- The pending enabled lines of core `k` (60_exceptions.md R360, R372). -/
def Ports.match (p : Ports) (k : CoreId) : Word := p.ie &&& p.iflag &&& lineMask k

/-- The test of the IRQ dispatch (60_exceptions.md R360). -/
def State.irqPending (s : State) : Bool :=
  s.curPorts.ime.getLsbD 0 && !psrI s.cur.cpsr && s.curPorts.match s.turn != 0#32

/-- `irq_dispatch(k)`: IRQ mode at vector 0x18 with r14 = NIA + 4 (60_exceptions.md R360, R362). -/
def State.irqDispatch (s : State) : State :=
  if s.irqPending then
    s.onCur fun c =>
      c.enterException s.turn (s.cfg.vbase.get s.turn) .irq 0x18#32 (c.nextInstr + 4#32) false
  else s

/-! ## Flush, advance, and the cycle -/

/-- `flush_pipeline(k)` (41_pipeline.md R157). -/
def CoreState.flush (c : CoreState) : CoreState :=
  { c with ptr := 0, slot0 := Slot.empty, slot1 := Slot.empty, slot2 := Slot.empty, needsFlush := false }

/-- `update_pc(k)` (41_pipeline.md R160). -/
def CoreState.updatePc (c : CoreState) : CoreState :=
  { c with regs := { c.regs with r15 := c.regs.r15 + c.width }, ptr := c.ptr + 1 }

/-- The end of a cycle: flush or advance (41_pipeline.md R142). -/
def CoreState.endCycle (c : CoreState) : CoreState := if c.needsFlush then c.flush else c.updatePc

/-- The cycle after an execute that did not fill: nothing more after a stop, otherwise the IRQ dispatch of a core
that is not idle, then flush or advance (41_pipeline.md R142, R159). -/
def State.afterExecute (s : State) : State :=
  if s.cur.running then
    (if s.cur.idleState = .running then s.irqDispatch else s).onCur CoreState.endCycle
  else s

/-- `pipeline_cycle(k)` (41_pipeline.md R142). -/
def State.pipelineCycle (s : State) : Out :=
  let s1 := s.frontEnd
  if s1.cur.execSlot.decoded then
    match s1.recordDispatch.executeSlot with
    | .next s2 => .next s2.afterExecute
    | .fault f => .fault f
    | .refused r => .refused r
  else .next (s1.fillStage.onCur CoreState.endCycle)

/-! ## Placing an instruction -/

/-- The machine with an instruction of `nbits` bits `w` in the executing slot of the core that holds the turn, and
in memory at the address the pipeline geometry gives it (41_pipeline.md R165): the very next tick executes it.  A
halfword (up to 16 bits) puts the core into Thumb state, a word into ARM state (notes/assumptions/17.md). -/
def State.placeInstr (s : State) (nbits w : Nat) : State :=
  let thumb := decide (nbits ≤ 16)
  let width : Word := if thumb then 2#32 else 4#32
  let word : Word := if thumb then (BitVec.ofNat 16 w).setWidth 32 else BitVec.ofNat 32 w
  let c := s.cur
  let a := if thumb then alignHalf c.regs.r15 else alignWord c.regs.r15
  let c1 := { c with
    cpsr := psrSetT c.cpsr thumb, regs := { c.regs with r15 := a + 2#32 * width }, needsFlush := false,
    idleState := .running }
  let c2 := c1.setSlot c1.decodeIdx Slot.empty
  let c3 := c2.setExecSlot { Slot.empty with word := word, tag := decodeTag s.turn thumb word }
  let s1 := s.setCur c3
  { s1 with
    cores := ⟨{ s1.cores.fast with running := true }, { s1.cores.slow with running := true }⟩
    mem := memStore s.mem a (if thumb then .half else .word) word
    sessionHalted := false
    debugHalted := false
    bpResume := s.bpResume || s.breakpoints.contains a }

end Sys2Proof.Machine
end

