-- ==== Sys2Proof/Machine/Scheduler.lean ====
section
/-! DEFINITION. The idle controller (60_exceptions.md R366 to R374) and the dual-core clock scheduler (R376 to
R388). -/

namespace Sys2Proof.Machine

/-! ## Peripheral pulses -/

/-- The effect of one pulse on the ports and memory (60_exceptions.md R353). -/
def State.applyPulse (s : State) (p : Pulse) : State :=
  { s.setPorts { s.curPorts with iflag := s.curPorts.iflag ||| p.setIF } with
    mem := p.writes.foldl (fun m w => memPut m w.1.toNat w.2) s.mem }

/-- `pulse(k)`: the next entry of the queue of core `k`, or nothing (60_exceptions.md R353, R380;
notes/assumptions/6.md). -/
def State.pulse (s : State) : State :=
  match s.curPorts.pulses with
  | [] => s
  | p :: rest => (s.setPorts { s.curPorts with pulses := rest }).applyPulse p

/-! ## The idle step -/

/-- The exit test of WAIT_INTERRUPT (60_exceptions.md R371). -/
def State.waitOver (s : State) : Bool :=
  (s.cur.waitAnySel == 0#32 && (s.curPorts.iflag &&& lineMask s.turn) != 0#32) || s.curPorts.match s.turn != 0#32

/-- The idle step of HALTED (60_exceptions.md R372). -/
def State.idleHalted (s : State) : State :=
  if s.curPorts.match s.turn != 0#32 then s.onCur fun c => { c with idleState := .running } else s

/-- The idle step of WAIT_LOOP (60_exceptions.md R370). -/
def State.idleWaitLoop (s : State) : State :=
  s.onCur fun c =>
    let n := if c.waitCount = 0#32 then 0#32 else c.waitCount - 1#32
    { c with waitCount := n, idleState := if n = 0#32 then .running else c.idleState }

/-- The idle step of WAIT_INTERRUPT (60_exceptions.md R371). -/
def State.idleWaitInterrupt (s : State) : State :=
  if s.waitOver then
    let p := s.curPorts
    (s.setPorts { p with ie := p.ieSaved, iflag := p.ifSaved ||| p.iflag }).onCur fun c => { c with idleState := .running }
  else s

/-- `idle_step(k)`, with its charge (60_exceptions.md R373, R379). -/
def State.idleStep (s : State) : State :=
  let s1 :=
    match s.cur.idleState with
    | .running => s
    | .halted => s.idleHalted
    | .waitLoop => s.idleWaitLoop
    | .waitInterrupt => s.idleWaitInterrupt
  s1.onCur fun c => c.charge (s.cfg.idleCycles s.turn)

/-! ## The scheduler -/

/-- `cost(k, c)` in FAST cycles (60_exceptions.md R383). -/
def tickCost (k : CoreId) (c : Nat) : Int :=
  match k with
  | .fast => c
  | .slow => 2 * c

/-- `handoff()` (60_exceptions.md R385). -/
def State.handoff (s : State) : State :=
  let t : PerCore Bool := ⟨!s.myTurn.fast, !s.myTurn.slow⟩
  { s with myTurn := t, budget := -s.budget, busOwner := if t.fast then .fast else .slow }

/-- The budget subtraction and the handoff test at the end of a tick (60_exceptions.md R381, R382). -/
def State.settle (s : State) : State :=
  let s1 := { s with budget := s.budget - tickCost s.turn s.cur.cycles }
  if s1.budget ≤ 0 then s1.handoff else s1

/-- The address a breakpoint is compared with, when the core is about to dispatch (60_exceptions.md R355). -/
def State.breakpointAt (s : State) : Option Word :=
  if s.cur.idleState = .running ∧ s.cur.execSlot.decoded = true then some s.cur.instrAddr else none

/-- The start of the work of a tick: the cycle counter and the record of accesses cleared, then the pulse
(60_exceptions.md R377). -/
def State.beginTick (s : State) : State :=
  ({ s with traffic := [] }.onCur fun c => { c with cycles := 0 }).pulse

/-- The work of a tick, after its guards (60_exceptions.md R377). -/
def State.work (s : State) : Out :=
  let s1 := s.beginTick
  if s1.cur.idleState = .running then
    match s1.pipelineCycle with
    | .next s2 => .next s2.settle
    | .fault f => .fault f
    | .refused r => .refused r
  else .next s1.idleStep.settle

/-- `scheduler_tick()` (60_exceptions.md R376, R377). -/
def schedulerTick (s : State) : Out :=
  if s.sessionHalted then .next s
  else if !s.cores.fast.running || !s.cores.slow.running then .next { s with sessionHalted := true }
  else if s.debugHalted then .next s
  else
    match s.breakpointAt with
    | none => s.work
    | some a =>
      if s.bpResume then { s with bpResume := false }.work
      else if s.breakpoints.contains a then .next { s with debugHalted := true }
      else s.work

end Sys2Proof.Machine
end

