-- ==== Sys2Proof/Machine/Step.lean ====
section
/-! DEFINITION. One step of the machine: one scheduler tick (60_exceptions.md R377). -/

namespace Sys2Proof.Machine

/-- One scheduler tick (60_exceptions.md R377). -/
def step (s : State) : Host.Outcome State Fault Refusal := schedulerTick s

/-- The machine with an instruction placed so that the very next step executes it (notes/assumptions/17.md). -/
def State.withFetchWord (s : State) (nbits w : Nat) : State := s.placeInstr nbits w

end Sys2Proof.Machine
end

