-- ==== Sys2Proof/Machine/HostOps.lean ====
section
/-! DEFINITION. What the host, the debugger and the memory subsystem may do between two ticks
(70_reset_and_hazards.md R400, R401, R425; 60_exceptions.md R356).  `step` calls none of these. -/

namespace Sys2Proof.Machine

/-- `reset(k)` during a session: core `k` at its reset values, the scheduler re-initialised, the other core as it
was (70_reset_and_hazards.md R400, R401). -/
def State.resetCore (s : State) (k : CoreId) : State :=
  { s with
    cores := s.cores.set k (CoreState.resetValue s.cfg k)
    budget := s.cfg.initBudget
    myTurn := ⟨true, false⟩
    busOwner := .fast
    sessionHalted := false
    debugHalted := false
    bpResume := false }

/-- Cancel: `running` of a core cleared (70_reset_and_hazards.md R425). -/
def State.cancel (s : State) (k : CoreId) : State :=
  { s with cores := s.cores.set k { s.cores.get k with running := false } }

/-- The debugger halts the scheduler before the next dispatch (60_exceptions.md R356). -/
def State.debugHalt (s : State) : State := { s with debugHalted := true }

/-- The debugger resumes the scheduler (60_exceptions.md R356). -/
def State.debugResume (s : State) : State := { s with debugHalted := false, bpResume := true }

/-- The debugger sets BREAKPOINTS (70_reset_and_hazards.md R425). -/
def State.setBreakpoints (s : State) (bs : List Word) : State := { s with breakpoints := bs }

/-- The memory subsystem writes a byte of memory between two ticks (70_reset_and_hazards.md R425). -/
def State.pokeByte (s : State) (a : Word) (b : Byte) : State := { s with mem := memPut s.mem a.toNat b }

/-- The memory subsystem sets the ports of a core between two ticks (10_state.md R47, R48). -/
def State.pokePorts (s : State) (k : CoreId) (p : Ports) : State := { s with ports := s.ports.set k p }

/-- A launch: the configuration, a memory image, the ports, and the reset of both cores
(70_reset_and_hazards.md R424). -/
def State.launch (cfg : Config) (image : List (Word × Byte)) (ports : PerCore Ports) : State :=
  { State.resetWith cfg with mem := image.foldl (fun m x => memPut m x.1.toNat x.2) [], ports := ports }

end Sys2Proof.Machine
end

