-- ==== Sys2Proof/WellFormed.lean ====
section
/-! DEFINITION. Which terms of `Instr` are instructions of a core: the ones that core has (30_encoding.md R99),
that are no unpredictable form (R103) and whose condition their encoding can hold (R95, R97). -/

namespace Sys2Proof

/-- Whether the encoding of the instruction can hold its condition: the words of B and BL with cond = 1111 are BLX
immediate on FAST (30_encoding.md R95) and UNRECOGNIZED on SLOW (R99), and format 16 has no cond = 1110 or 1111 (R97). -/
def Instr.condEncodable : Instr → Bool
  | .b c _ => c != .nv
  | .bl c _ => c != .nv
  | .tBCond c _ => c != .al && c != .nv
  | _ => true

/-- The well-formed instructions of core `k`. -/
def Instr.wf (k : CoreId) (i : Instr) : Bool := i.availableOn k && !i.unpredictable && i.condEncodable

end Sys2Proof
end

