-- ==== Sys2Proof/Safety.lean ====
section
/-! DEFINITION. The terms the statements use: the invariants of a safe run, what an instruction may change (frames), and
views that name, for the instructions of one shape, what the spec says they write. -/

namespace Sys2Proof

open Machine

/-! ## Invariants -/

/-- The reserved bits of a status word of core `k` are 0 (10_state.md R27). -/
def PsrClean (k : CoreId) (v : Word) : Prop := v &&& ~~~psrMask k = 0#32

/-- The live status register names a legal mode, and no status register holds a reserved bit (10_state.md R27, R29,
R30). -/
def Machine.CoreState.PsrInv (k : CoreId) (c : CoreState) : Prop :=
  psrLegal c.cpsr = true ∧ PsrClean k c.cpsr ∧ PsrClean k c.spsrFiq ∧ PsrClean k c.spsrSvc ∧ PsrClean k c.spsrAbt
    ∧ PsrClean k c.spsrIrq ∧ PsrClean k c.spsrUnd

/-- Each target that a slot records for a register is a bank of that register (41_pipeline.md R153). -/
def Machine.CoreState.StagingInv (c : CoreState) : Prop := ∀ (j : Fin 3) (i : Reg), ∃ m, (c.slot j).rphys.get i = phys i m

/-- r15 is aligned to the instruction width (10_state.md R50), and no slot stages another register into it. -/
def Machine.CoreState.PcInv (c : CoreState) : Prop := c.alignPc c.regs.r15 = c.regs.r15 ∧ c.StagingInv

/-- A slot holds a word of the current state, and a decoded slot the tag of its word (41_pipeline.md R145, R147). -/
def Machine.Slot.TagInv (k : CoreId) (thumb : Bool) (sl : Slot) : Prop :=
  (thumb = true → sl.word.toNat < 2 ^ 16) ∧ (sl.decoded = true → sl.tag = decodeTag k thumb sl.word)

/-- The slots are as the stages leave them; a running core has nothing staged and no flush pending between two ticks
(41_pipeline.md R145, R147, R155, R157). -/
def Machine.CoreState.SlotInv (k : CoreId) (c : CoreState) : Prop :=
  (∀ j, (c.slot j).TagInv k (psrT c.cpsr)) ∧ (c.running = true → c.needsFlush = false ∧ ∀ j, (c.slot j).rmask = 0#16)

/-- Exactly one core holds the turn, and bus_owner names it (10_state.md R45, 60_exceptions.md R388). -/
def Machine.State.TurnInv (s : State) : Prop :=
  s.myTurn.get s.busOwner = true ∧ ∀ k, k ≠ s.busOwner → s.myTurn.get k = false

/-- The invariant of a run: memory in canonical form, and the invariants of both cores and of the scheduler. -/
def Machine.State.Inv (s : State) : Prop :=
  Memory.wf s.mem = true ∧ s.TurnInv ∧ ∀ k, (s.cores.get k).PsrInv k ∧ (s.cores.get k).PcInv ∧ (s.cores.get k).SlotInv k

/-! ## Frames -/

/-- Between `s` and `t` nothing changes but, of the core that holds the turn, the general registers, cpsr, the flush
request, the cycle counter (which grows) and the scratch lists of slots, which are clear of staged registers after;
and memory and the record of accesses. -/
def Frame (s t : State) : Prop :=
  t = { s with
        cores := s.cores.set s.turn { s.cur with
          regs := t.cur.regs, cpsr := t.cur.cpsr, needsFlush := t.cur.needsFlush, cycles := t.cur.cycles,
          slot0 := t.cur.slot0, slot1 := t.cur.slot1, slot2 := t.cur.slot2 }
        mem := t.mem, traffic := t.traffic }
    ∧ (∀ j, (t.cur.slot j).word = (s.cur.slot j).word ∧ (t.cur.slot j).tag = (s.cur.slot j).tag)
    ∧ t.cur.execSlot.rmask = 0#16 ∧ s.cur.cycles < t.cur.cycles

/-- Between `s` and `t` nothing changes but, of the core that holds the turn, the general registers, the status
registers, the flush request, the cycle counter (which grows) and the scratch lists of slots. -/
def StatusFrame (s t : State) : Prop :=
  t = { s with
        cores := s.cores.set s.turn { s.cur with
          regs := t.cur.regs, cpsr := t.cur.cpsr, spsrFiq := t.cur.spsrFiq, spsrSvc := t.cur.spsrSvc,
          spsrAbt := t.cur.spsrAbt, spsrIrq := t.cur.spsrIrq, spsrUnd := t.cur.spsrUnd,
          needsFlush := t.cur.needsFlush, cycles := t.cur.cycles,
          slot0 := t.cur.slot0, slot1 := t.cur.slot1, slot2 := t.cur.slot2 } }
    ∧ (∀ j, (t.cur.slot j).word = (s.cur.slot j).word ∧ (t.cur.slot j).tag = (s.cur.slot j).tag)
    ∧ t.cur.execSlot.rmask = 0#16 ∧ s.cur.cycles < t.cur.cycles

/-- Every byte of memory reads as before. -/
def MemSame (s t : State) : Prop := ∀ a, memByte t.mem a = memByte s.mem a

/-- Every byte of memory reads as before, and no access was made. -/
def NoAccess (s t : State) : Prop := MemSame s t ∧ t.traffic = s.traffic

/-- The bytes of an access of a width at an address. -/
def InAccess (w : Width) (addr : Word) (a : Nat) : Prop := ∃ n < w.bytes, a = (addr + BitVec.ofNat 32 n).toNat

/-- Every byte outside the access at `addr` reads as before. -/
def MemSameOutside (w : Width) (addr : Word) (s t : State) : Prop :=
  ∀ a, ¬InAccess w addr a → memByte t.mem a = memByte s.mem a

/-- Every register of every bank that `changed` does not name keeps its value. -/
def RegsSame (changed : PhysReg → Prop) (s t : State) : Prop :=
  ∀ p, ¬changed p → t.cur.regs.get p = s.cur.regs.get p

/-- The physical register a number names in the mode of the core that holds the turn. -/
def Machine.State.physOf (s : State) (i : Reg) : PhysReg := phys i s.cur.mode

/-- The register a write-back names, if there is one. -/
def Machine.State.isWb (s : State) (wb : Option (Reg × Word)) (p : PhysReg) : Prop := ∃ r v, wb = some (r, v) ∧ p = s.physOf r

/-! ## When an instruction runs -/

/-- The condition field of an ARM instruction that execute tests (41_pipeline.md R149, R151). -/
def Instr.cond? : Instr → Option Cond
  | .andShiftImm c .. => some c
  | .andShiftReg c .. => some c
  | .andImm c .. => some c
  | .eorShiftImm c .. => some c
  | .eorShiftReg c .. => some c
  | .eorImm c .. => some c
  | .subShiftImm c .. => some c
  | .subShiftReg c .. => some c
  | .subImm c .. => some c
  | .rsbShiftImm c .. => some c
  | .rsbShiftReg c .. => some c
  | .rsbImm c .. => some c
  | .addShiftImm c .. => some c
  | .addShiftReg c .. => some c
  | .addImm c .. => some c
  | .adcShiftImm c .. => some c
  | .adcShiftReg c .. => some c
  | .adcImm c .. => some c
  | .sbcShiftImm c .. => some c
  | .sbcShiftReg c .. => some c
  | .sbcImm c .. => some c
  | .rscShiftImm c .. => some c
  | .rscShiftReg c .. => some c
  | .rscImm c .. => some c
  | .tstShiftImm c .. => some c
  | .tstShiftReg c .. => some c
  | .tstImm c .. => some c
  | .teqShiftImm c .. => some c
  | .teqShiftReg c .. => some c
  | .teqImm c .. => some c
  | .cmpShiftImm c .. => some c
  | .cmpShiftReg c .. => some c
  | .cmpImm c .. => some c
  | .cmnShiftImm c .. => some c
  | .cmnShiftReg c .. => some c
  | .cmnImm c .. => some c
  | .orrShiftImm c .. => some c
  | .orrShiftReg c .. => some c
  | .orrImm c .. => some c
  | .movShiftImm c .. => some c
  | .movShiftReg c .. => some c
  | .movImm c .. => some c
  | .bicShiftImm c .. => some c
  | .bicShiftReg c .. => some c
  | .bicImm c .. => some c
  | .mvnShiftImm c .. => some c
  | .mvnShiftReg c .. => some c
  | .mvnImm c .. => some c
  | .mrs c .. => some c
  | .msrReg c .. => some c
  | .msrImm c .. => some c
  | .mul c .. => some c
  | .mla c .. => some c
  | .umull c .. => some c
  | .umlal c .. => some c
  | .smull c .. => some c
  | .smlal c .. => some c
  | .clz c .. => some c
  | .qadd c .. => some c
  | .qsub c .. => some c
  | .qdadd c .. => some c
  | .qdsub c .. => some c
  | .smlaXY c .. => some c
  | .smlawY c .. => some c
  | .smulwY c .. => some c
  | .smlalXY c .. => some c
  | .smulXY c .. => some c
  | .ldrImm c .. => some c
  | .ldrReg c .. => some c
  | .strImm c .. => some c
  | .strReg c .. => some c
  | .ldrbImm c .. => some c
  | .ldrbReg c .. => some c
  | .strbImm c .. => some c
  | .strbReg c .. => some c
  | .ldrtImm c .. => some c
  | .ldrtReg c .. => some c
  | .strtImm c .. => some c
  | .strtReg c .. => some c
  | .ldrbtImm c .. => some c
  | .ldrbtReg c .. => some c
  | .strbtImm c .. => some c
  | .strbtReg c .. => some c
  | .ldrh c .. => some c
  | .strh c .. => some c
  | .ldrsb c .. => some c
  | .ldrsh c .. => some c
  | .ldrd c .. => some c
  | .strd c .. => some c
  | .ldm c .. => some c
  | .stm c .. => some c
  | .swp c .. => some c
  | .swpb c .. => some c
  | .b c .. => some c
  | .bl c .. => some c
  | .bx c .. => some c
  | .blxReg c .. => some c
  | .swi c .. => some c
  | .mcr c .. => some c
  | .mrc c .. => some c
  | .bkpt .. => some .al
  | _ => none

/-- The condition test passes, or there is none (41_pipeline.md R149). -/
def Instr.passes (i : Instr) (cpsr : Word) : Bool :=
  match i.cond? with
  | some c => checkCondition c cpsr
  | none => true

/-- The instruction is executed in its own state, neither skipped nor stopped as unrecognized, with nothing staged
before (41_pipeline.md R149; nothing is ever staged before an instruction of a run: `CoreState.SlotInv`). -/
def Runs (i : Instr) (s : State) : Prop :=
  i.isThumb = psrT s.cur.cpsr ∧ i.recognizedOn s.turn = true ∧ i.passes s.cur.cpsr = true ∧ s.cur.execSlot.rmask = 0#16

/-! ## Operand 2 -/

/-- `x[i]` as an ARM instruction reads it: A + 8 for r15 (42_arm_dataproc.md R211, 43_arm_loadstore.md R216). -/
def Machine.CoreState.armReg (c : CoreState) (i : Reg) : Word :=
  if i = .r15 then c.instrAddr + 8#32 else c.regs.get (phys i c.mode)

/-- The carry flag, bit 29 of cpsr. -/
def Machine.CoreState.carry (c : CoreState) : Bool := c.cpsr.getLsbD 29

/-- The 8-bit immediate rotated right by twice the rotation field (30_encoding.md R91). -/
def rotated (rot : BitVec 4) (imm8 : BitVec 8) : Word :=
  let v := BitVec.ofNat 32 imm8.toNat
  v >>> (2 * rot.toNat) ||| v <<< (32 - 2 * rot.toNat)

/-- A register shifted by an immediate amount, where 0 keeps the special meaning of the operator (42_arm_dataproc.md
R173); the operators are those that `Obligations.ShifterBits` gives bit by bit. -/
def Machine.CoreState.immShift (c : CoreState) (amount : BitVec 5) (ty : ShiftType) (rm : Reg) : Word × Option Bool :=
  shiftOp ty (c.armReg rm) amount.toNat c.carry

/-- Operand 2 and the carry of the shifter, `none` where C is unaffected, as the three forms give them: the rotated
immediate, whose carry is its bit 31 unless the rotation is 0 (42_arm_dataproc.md R172); the shift by an immediate
(R173); the shift by the low byte of Rs, which an amount of 0 bypasses (R171). -/
def Machine.CoreState.sh (c : CoreState) : Operand2 → Word × Option Bool
  | .imm rot imm8 => (rotated rot imm8, if rot = 0#4 then none else some ((rotated rot imm8).getLsbD 31))
  | .shiftImm amount ty rm => c.immShift amount ty rm
  | .shiftReg rs ty rm =>
    let amount := (c.armReg rs).toNat % 256
    if amount = 0 then (c.armReg rm, none) else shiftOp ty (c.armReg rm) amount c.carry

/-! ## Data processing and compares -/

/-- One computation of the ALU: the operation, its operands, the register that receives the result (none for a
compare), and whether the flags are written. -/
structure Alu where
  op : DpOp
  a : Word
  sh : Word
  co : Option Bool
  dest : Option Reg
  flags : Bool

/-- A data-processing operation that writes a register. -/
def aluArm (c : CoreState) (op : DpOp) (s : Bool) (rn rd : Reg) (o : Operand2) : Alu :=
  ⟨op, c.armReg rn, (c.sh o).1, (c.sh o).2, some rd, s⟩

/-- MOV and MVN, which read no Rn. -/
def aluMove (c : CoreState) (op : DpOp) (s : Bool) (rd : Reg) (o : Operand2) : Alu :=
  ⟨op, 0#32, (c.sh o).1, (c.sh o).2, some rd, s⟩

/-- A compare. -/
def aluTest (c : CoreState) (op : DpOp) (rn : Reg) (o : Operand2) : Alu :=
  ⟨op, c.armReg rn, (c.sh o).1, (c.sh o).2, none, true⟩

/-- A Thumb operation on two values without a shifter. -/
def aluThumb (op : DpOp) (a b : Word) (rd : LoReg) : Alu := ⟨op, a, b, none, some (loReg rd), true⟩

/-- A Thumb compare. -/
def aluThumbTest (op : DpOp) (a b : Word) : Alu := ⟨op, a, b, none, none, true⟩

/-- A Thumb shift: the move of a shifted value. -/
def aluThumbShift (r : Word × Option Bool) (rd : LoReg) : Alu := ⟨.mov, 0#32, r.1, r.2, some (loReg rd), true⟩

/-- The value of a low register. -/
def Machine.CoreState.low (c : CoreState) (r : LoReg) : Word := c.reg (loReg r)

/-- The low byte of a low register, the amount of a shift by register. -/
def Machine.CoreState.lowAmount (c : CoreState) (r : LoReg) : Nat := (c.low r).toNat % 256

/-- The computation of the ARM data-processing instructions (42_arm_dataproc.md R174 to R190) and of the Thumb
instructions of formats 1 to 5 that compute flags, but for MUL (45_thumb.md R266 to R292, R294). -/
def Instr.alu? (i : Instr) (c : CoreState) : Option Alu :=
  match i with
  | .andShiftImm _ s rn rd amount ty rm => some (aluArm c .and s rn rd (.shiftImm amount ty rm))
  | .andShiftReg _ s rn rd rs ty rm => some (aluArm c .and s rn rd (.shiftReg rs ty rm))
  | .andImm _ s rn rd rot imm8 => some (aluArm c .and s rn rd (.imm rot imm8))
  | .eorShiftImm _ s rn rd amount ty rm => some (aluArm c .eor s rn rd (.shiftImm amount ty rm))
  | .eorShiftReg _ s rn rd rs ty rm => some (aluArm c .eor s rn rd (.shiftReg rs ty rm))
  | .eorImm _ s rn rd rot imm8 => some (aluArm c .eor s rn rd (.imm rot imm8))
  | .subShiftImm _ s rn rd amount ty rm => some (aluArm c .sub s rn rd (.shiftImm amount ty rm))
  | .subShiftReg _ s rn rd rs ty rm => some (aluArm c .sub s rn rd (.shiftReg rs ty rm))
  | .subImm _ s rn rd rot imm8 => some (aluArm c .sub s rn rd (.imm rot imm8))
  | .rsbShiftImm _ s rn rd amount ty rm => some (aluArm c .rsb s rn rd (.shiftImm amount ty rm))
  | .rsbShiftReg _ s rn rd rs ty rm => some (aluArm c .rsb s rn rd (.shiftReg rs ty rm))
  | .rsbImm _ s rn rd rot imm8 => some (aluArm c .rsb s rn rd (.imm rot imm8))
  | .addShiftImm _ s rn rd amount ty rm => some (aluArm c .add s rn rd (.shiftImm amount ty rm))
  | .addShiftReg _ s rn rd rs ty rm => some (aluArm c .add s rn rd (.shiftReg rs ty rm))
  | .addImm _ s rn rd rot imm8 => some (aluArm c .add s rn rd (.imm rot imm8))
  | .adcShiftImm _ s rn rd amount ty rm => some (aluArm c .adc s rn rd (.shiftImm amount ty rm))
  | .adcShiftReg _ s rn rd rs ty rm => some (aluArm c .adc s rn rd (.shiftReg rs ty rm))
  | .adcImm _ s rn rd rot imm8 => some (aluArm c .adc s rn rd (.imm rot imm8))
  | .sbcShiftImm _ s rn rd amount ty rm => some (aluArm c .sbc s rn rd (.shiftImm amount ty rm))
  | .sbcShiftReg _ s rn rd rs ty rm => some (aluArm c .sbc s rn rd (.shiftReg rs ty rm))
  | .sbcImm _ s rn rd rot imm8 => some (aluArm c .sbc s rn rd (.imm rot imm8))
  | .rscShiftImm _ s rn rd amount ty rm => some (aluArm c .rsc s rn rd (.shiftImm amount ty rm))
  | .rscShiftReg _ s rn rd rs ty rm => some (aluArm c .rsc s rn rd (.shiftReg rs ty rm))
  | .rscImm _ s rn rd rot imm8 => some (aluArm c .rsc s rn rd (.imm rot imm8))
  | .tstShiftImm _ rn amount ty rm => some (aluTest c .tst rn (.shiftImm amount ty rm))
  | .tstShiftReg _ rn rs ty rm => some (aluTest c .tst rn (.shiftReg rs ty rm))
  | .tstImm _ rn rot imm8 => some (aluTest c .tst rn (.imm rot imm8))
  | .teqShiftImm _ rn amount ty rm => some (aluTest c .teq rn (.shiftImm amount ty rm))
  | .teqShiftReg _ rn rs ty rm => some (aluTest c .teq rn (.shiftReg rs ty rm))
  | .teqImm _ rn rot imm8 => some (aluTest c .teq rn (.imm rot imm8))
  | .cmpShiftImm _ rn amount ty rm => some (aluTest c .cmp rn (.shiftImm amount ty rm))
  | .cmpShiftReg _ rn rs ty rm => some (aluTest c .cmp rn (.shiftReg rs ty rm))
  | .cmpImm _ rn rot imm8 => some (aluTest c .cmp rn (.imm rot imm8))
  | .cmnShiftImm _ rn amount ty rm => some (aluTest c .cmn rn (.shiftImm amount ty rm))
  | .cmnShiftReg _ rn rs ty rm => some (aluTest c .cmn rn (.shiftReg rs ty rm))
  | .cmnImm _ rn rot imm8 => some (aluTest c .cmn rn (.imm rot imm8))
  | .orrShiftImm _ s rn rd amount ty rm => some (aluArm c .orr s rn rd (.shiftImm amount ty rm))
  | .orrShiftReg _ s rn rd rs ty rm => some (aluArm c .orr s rn rd (.shiftReg rs ty rm))
  | .orrImm _ s rn rd rot imm8 => some (aluArm c .orr s rn rd (.imm rot imm8))
  | .movShiftImm _ s rd amount ty rm => some (aluMove c .mov s rd (.shiftImm amount ty rm))
  | .movShiftReg _ s rd rs ty rm => some (aluMove c .mov s rd (.shiftReg rs ty rm))
  | .movImm _ s rd rot imm8 => some (aluMove c .mov s rd (.imm rot imm8))
  | .bicShiftImm _ s rn rd amount ty rm => some (aluArm c .bic s rn rd (.shiftImm amount ty rm))
  | .bicShiftReg _ s rn rd rs ty rm => some (aluArm c .bic s rn rd (.shiftReg rs ty rm))
  | .bicImm _ s rn rd rot imm8 => some (aluArm c .bic s rn rd (.imm rot imm8))
  | .mvnShiftImm _ s rd amount ty rm => some (aluMove c .mvn s rd (.shiftImm amount ty rm))
  | .mvnShiftReg _ s rd rs ty rm => some (aluMove c .mvn s rd (.shiftReg rs ty rm))
  | .mvnImm _ s rd rot imm8 => some (aluMove c .mvn s rd (.imm rot imm8))
  | .tLslImm imm5 rs rd => some (aluThumbShift (shiftOp .lsl (c.low rs) imm5.toNat c.carry) rd)
  | .tLsrImm imm5 rs rd => some (aluThumbShift (shiftOp .lsr (c.low rs) imm5.toNat c.carry) rd)
  | .tAsrImm imm5 rs rd => some (aluThumbShift (shiftOp .asr (c.low rs) imm5.toNat c.carry) rd)
  | .tAddReg rn rs rd => some (aluThumb .add (c.low rs) (c.low rn) rd)
  | .tSubReg rn rs rd => some (aluThumb .sub (c.low rs) (c.low rn) rd)
  | .tAddImm3 imm3 rs rd => some (aluThumb .add (c.low rs) (imm3.setWidth 32) rd)
  | .tSubImm3 imm3 rs rd => some (aluThumb .sub (c.low rs) (imm3.setWidth 32) rd)
  | .tMovImm8 rd imm8 => some (aluThumb .mov 0#32 (imm8.setWidth 32) rd)
  | .tCmpImm8 rd imm8 => some (aluThumbTest .cmp (c.low rd) (imm8.setWidth 32))
  | .tAddImm8 rd imm8 => some (aluThumb .add (c.low rd) (imm8.setWidth 32) rd)
  | .tSubImm8 rd imm8 => some (aluThumb .sub (c.low rd) (imm8.setWidth 32) rd)
  | .tAndAlu rs rd => some (aluThumb .and (c.low rd) (c.low rs) rd)
  | .tEorAlu rs rd => some (aluThumb .eor (c.low rd) (c.low rs) rd)
  | .tLslAlu rs rd => some (aluThumbShift (shiftReg .lsl (c.low rd) (c.lowAmount rs) c.carry) rd)
  | .tLsrAlu rs rd => some (aluThumbShift (shiftReg .lsr (c.low rd) (c.lowAmount rs) c.carry) rd)
  | .tAsrAlu rs rd => some (aluThumbShift (shiftReg .asr (c.low rd) (c.lowAmount rs) c.carry) rd)
  | .tAdcAlu rs rd => some (aluThumb .adc (c.low rd) (c.low rs) rd)
  | .tSbcAlu rs rd => some (aluThumb .sbc (c.low rd) (c.low rs) rd)
  | .tRorAlu rs rd => some (aluThumbShift (shiftReg .ror (c.low rd) (c.lowAmount rs) c.carry) rd)
  | .tTstAlu rs rd => some (aluThumbTest .tst (c.low rd) (c.low rs))
  | .tNegAlu rs rd => some (aluThumb .sub 0#32 (c.low rs) rd)
  | .tCmpAlu rs rd => some (aluThumbTest .cmp (c.low rd) (c.low rs))
  | .tCmnAlu rs rd => some (aluThumbTest .cmn (c.low rd) (c.low rs))
  | .tOrrAlu rs rd => some (aluThumb .orr (c.low rd) (c.low rs) rd)
  | .tBicAlu rs rd => some (aluThumb .bic (c.low rd) (c.low rs) rd)
  | .tMvnAlu rs rd => some (aluThumb .mvn 0#32 (c.low rs) rd)
  | .tCmpHi rd rm => some (aluThumbTest .cmp (c.reg rd) (c.reg rm))
  | _ => none

/-- The result of a computation, and the status word with its flag update (42_arm_dataproc.md R175 to R190). -/
def Alu.result (x : Alu) (cpsr : Word) : Word × Word := dpCompute x.op cpsr x.a x.sh x.co

/-! ## Multiplies and the plain register writes -/

/-- The top or bottom halfword as a signed integer (42_arm_dataproc.md R204). -/
def signedHalf (v : Word) (top : Bool) : Int := ((if top then v >>> 16 else v).setWidth 16).toInt

/-- A 32-bit multiply: the destination, the exact value modulo 2^32, and whether N and Z are written
(42_arm_dataproc.md R193, R194; 45_thumb.md R290). -/
def Instr.mul32? (i : Instr) (c : CoreState) : Option (Reg × Word × Bool) :=
  match i with
  | .mul _ s rd rs rm => some (rd, BitVec.ofNat 32 ((c.reg rm).toNat * (c.reg rs).toNat), s)
  | .mla _ s rd rn rs rm => some (rd, BitVec.ofNat 32 ((c.reg rm).toNat * (c.reg rs).toNat + (c.reg rn).toNat), s)
  | .tMulAlu rs rd => some (loReg rd, BitVec.ofNat 32 ((c.low rd).toNat * (c.low rs).toNat), true)
  | _ => none

/-- `u(x[RdHi]) * 2^32 + u(x[RdLo])` (42_arm_dataproc.md R196). -/
def Machine.CoreState.accumulator (c : CoreState) (rdHi rdLo : Reg) : Nat := (c.reg rdHi).toNat * 2 ^ 32 + (c.reg rdLo).toNat

/-- A 64-bit multiply: RdHi, RdLo, the exact value modulo 2^64, and whether N and Z are written
(42_arm_dataproc.md R195 to R198, R208). -/
def Instr.mul64? (i : Instr) (c : CoreState) : Option (Reg × Reg × BitVec 64 × Bool) :=
  match i with
  | .umull _ s hi lo rs rm => some (hi, lo, BitVec.ofNat 64 ((c.reg rm).toNat * (c.reg rs).toNat), s)
  | .umlal _ s hi lo rs rm =>
    some (hi, lo, BitVec.ofNat 64 ((c.reg rm).toNat * (c.reg rs).toNat + c.accumulator hi lo), s)
  | .smull _ s hi lo rs rm => some (hi, lo, BitVec.ofInt 64 ((c.reg rm).toInt * (c.reg rs).toInt), s)
  | .smlal _ s hi lo rs rm =>
    some (hi, lo, BitVec.ofInt 64 ((c.reg rm).toInt * (c.reg rs).toInt + c.accumulator hi lo), s)
  | .smlalXY _ x y hi lo rs rm =>
    some (hi, lo, BitVec.ofInt 64 (signedHalf (c.reg rm) x * signedHalf (c.reg rs) y + c.accumulator hi lo), false)
  | _ => none

/-- The status word a flag-setting multiply leaves: N and Z as given, V unchanged, and C as MUL_C_POLICY has it, unchanged
or a free value (42_arm_dataproc.md R199; notes/assumptions/26.md). -/
def Machine.State.mulPsr (s : State) (n z : Bool) : Word :=
  let v := psrSetNZ s.cur.cpsr n z
  (match s.cfg.mulCPolicy with
    | .unchanged => v
    | .meaningless => psrSetC v (Config.mulCarry s.turn s.cur.regs s.cur.cpsr)) &&& psrMask s.turn

/-- An instruction that writes one register other than r15 and no flag: the register and its new value
(42_arm_dataproc.md R191, R200, R207, R209; 45_thumb.md R293, R295, R315 to R318, R343). -/
def Instr.write? (i : Instr) (c : CoreState) : Option (Reg × Word) :=
  match i with
  | .mrs _ spsr rd => some (rd, if spsr then c.getSpsr else c.cpsr)
  | .clz _ rd rm => some (rd, BitVec.ofNat 32 (leadingZeros (c.reg rm)))
  | .smulwY _ y rd rs rm => some (rd, BitVec.ofInt 32 (((c.reg rm).toInt * signedHalf (c.reg rs) y) / 2 ^ 16))
  | .smulXY _ x y rd rs rm => some (rd, BitVec.ofInt 32 (signedHalf (c.reg rm) x * signedHalf (c.reg rs) y))
  | .tAddHi rd rm => if rd = .r15 then none else some (rd, c.reg rd + c.reg rm)
  | .tMovHi rd rm => if rd = .r15 then none else some (rd, c.reg rm)
  | .tAddPc rd imm8 => some (loReg rd, ((c.instrAddr + 4#32) &&& ~~~3#32) + BitVec.ofNat 32 (4 * imm8.toNat))
  | .tAddSp rd imm8 => some (loReg rd, c.reg .r13 + BitVec.ofNat 32 (4 * imm8.toNat))
  | .tIncSp imm7 => some (.r13, c.reg .r13 + BitVec.ofNat 32 (4 * imm7.toNat))
  | .tDecSp imm7 => some (.r13, c.reg .r13 - BitVec.ofNat 32 (4 * imm7.toNat))
  | .tBlPrefix off => some (.r14, c.instrAddr + 4#32 + BitVec.ofInt 32 (off.toInt * 4096))
  | _ => none

/-- The integers a 32-bit two's complement word holds. -/
def InWord (t : Int) : Prop := -2147483648 ≤ t ∧ t ≤ 2147483647

/-- The integer of a 32-bit word nearest to `t` (the paragraph after 42_arm_dataproc.md R200). -/
def nearest (t : Int) : Int := max (-2147483648) (min 2147483647 t)

/-- An instruction that may set Q: the destination, the new value, and whether Q is set (42_arm_dataproc.md R201 to
R206). -/
def Instr.sticky? (i : Instr) (c : CoreState) : Option (Reg × Word × Prop) :=
  let x := fun r => (c.reg r).toInt
  match i with
  | .qadd _ rn rd rm => some (rd, BitVec.ofInt 32 (nearest (x rm + x rn)), ¬InWord (x rm + x rn))
  | .qsub _ rn rd rm => some (rd, BitVec.ofInt 32 (nearest (x rm - x rn)), ¬InWord (x rm - x rn))
  | .qdadd _ rn rd rm =>
    some (rd, BitVec.ofInt 32 (nearest (x rm + nearest (2 * x rn))),
      ¬InWord (2 * x rn) ∨ ¬InWord (x rm + nearest (2 * x rn)))
  | .qdsub _ rn rd rm =>
    some (rd, BitVec.ofInt 32 (nearest (x rm - nearest (2 * x rn))),
      ¬InWord (2 * x rn) ∨ ¬InWord (x rm - nearest (2 * x rn)))
  | .smlaXY _ top1 top2 rd rn rs rm =>
    let t := signedHalf (c.reg rm) top1 * signedHalf (c.reg rs) top2 + x rn
    some (rd, BitVec.ofInt 32 t, ¬InWord t)
  | .smlawY _ top rd rn rs rm =>
    let t := (x rm * signedHalf (c.reg rs) top) / 2 ^ 16 + x rn
    some (rd, BitVec.ofInt 32 t, ¬InWord t)
  | _ => none

/-! ## Single transfers -/

/-- The five kinds of load (43_arm_loadstore.md R233). -/
inductive LoadKind where
  | word | byte | half | signedByte | signedHalf
  deriving DecidableEq, Repr

/-- The byte at a 32-bit address. -/
def Machine.State.byte (s : State) (a : Word) : Byte := memByte s.mem a.toNat

/-- The little-endian halfword at an address. -/
def Machine.State.half (s : State) (a : Word) : Half := s.byte (a + 1#32) ++ s.byte a

/-- The little-endian word at an address. -/
def Machine.State.word (s : State) (a : Word) : Word := s.half (a + 2#32) ++ s.half a

/-- The value each kind of load takes from memory on core `k`, with its rotations and its treatment of odd addresses
(43_arm_loadstore.md R233). -/
def LoadKind.value (kind : LoadKind) (k : CoreId) (s : State) (a : Word) : Word :=
  let odd := a.getLsbD 0
  let down := a &&& ~~~1#32
  match kind, k, odd with
  | .word, _, _ => (s.word (a &&& ~~~3#32)).rotateRight (8 * (a.toNat % 4))
  | .byte, _, _ => (s.byte a).setWidth 32
  | .signedByte, _, _ => (s.byte a).signExtend 32
  | .half, .slow, true => ((s.half down).setWidth 32 : Word).rotateRight 8
  | .half, _, _ => (s.half down).setWidth 32
  | .signedHalf, .slow, true => (s.byte a).signExtend 32
  | .signedHalf, _, _ => (s.half down).signExtend 32

/-- One single load: its kind, destination and address, and the write-back. -/
structure Load where
  kind : LoadKind
  rd : Reg
  addr : Word
  wb : Option (Reg × Word)

/-- An effective address, and the write-back of the base. -/
structure Effective where
  addr : Word
  wb : Option (Reg × Word)

/-- Address and write-back of the ARM single transfers: the base with the offset added or subtracted modulo 2^32, which
is the address unless the form is post-indexed, and the value written to Rn unless the form is a plain offset
(43_arm_loadstore.md R216). -/
def Machine.CoreState.effective (c : CoreState) (mode : IndexMode) (up : Bool) (rn : Reg) (off : Word) : Effective :=
  let base : Int := (c.armReg rn).toNat
  let moved := BitVec.ofInt 32 (if up then base + off.toNat else base - off.toNat)
  match mode with
  | .offset => ⟨moved, none⟩
  | .pre => ⟨moved, some (rn, moved)⟩
  | .post => ⟨c.armReg rn, some (rn, moved)⟩

/-- With the 12-bit immediate offset (43_arm_loadstore.md R215). -/
def Machine.CoreState.effImm (c : CoreState) (mode : IndexMode) (up : Bool) (rn : Reg) (imm12 : BitVec 12) : Effective :=
  c.effective mode up rn (BitVec.ofNat 32 imm12.toNat)

/-- With a shifted register as the offset, the carry of the shift discarded (43_arm_loadstore.md R215). -/
def Machine.CoreState.effReg (c : CoreState) (mode : IndexMode) (up : Bool) (rn : Reg) (amount : BitVec 5) (ty : ShiftType)
    (rm : Reg) : Effective :=
  c.effective mode up rn (c.immShift amount ty rm).1

/-- With the offset of the halfword and doubleword transfers (43_arm_loadstore.md R226). -/
def Machine.CoreState.effHdt (c : CoreState) (mode : IndexMode) (up : Bool) (rn : Reg) (off : HdtOffset) : Effective :=
  c.effective mode up rn (match off with
    | .imm v => BitVec.ofNat 32 v.toNat
    | .reg rm => c.armReg rm)

/-- The address of a Thumb transfer: a low base register and a constant (45_thumb.md R307, R311). -/
def Machine.CoreState.lowPlus (c : CoreState) (rb : LoReg) (off : Nat) : Word := c.low rb + BitVec.ofNat 32 off

/-- A load at an effective address. -/
def loadAt (kind : LoadKind) (rd : Reg) (e : Effective) : Load := ⟨kind, rd, e.addr, e.wb⟩

/-- The single loads (43_arm_loadstore.md R218, R220, R222, R224, R227, R229, R230; 45_thumb.md R298, R301, R302,
R304 to R306, R308, R310, R312, R314). -/
def Instr.load? (i : Instr) (c : CoreState) : Option Load :=
  match i with
  | .ldrImm _ m up rn rd imm12 => some (loadAt .word rd (c.effImm m up rn imm12))
  | .ldrReg _ m up rn rd amount ty rm => some (loadAt .word rd (c.effReg m up rn amount ty rm))
  | .ldrbImm _ m up rn rd imm12 => some (loadAt .byte rd (c.effImm m up rn imm12))
  | .ldrbReg _ m up rn rd amount ty rm => some (loadAt .byte rd (c.effReg m up rn amount ty rm))
  | .ldrtImm _ up rn rd imm12 => some (loadAt .word rd (c.effImm .post up rn imm12))
  | .ldrtReg _ up rn rd amount ty rm => some (loadAt .word rd (c.effReg .post up rn amount ty rm))
  | .ldrbtImm _ up rn rd imm12 => some (loadAt .byte rd (c.effImm .post up rn imm12))
  | .ldrbtReg _ up rn rd amount ty rm => some (loadAt .byte rd (c.effReg .post up rn amount ty rm))
  | .ldrh _ m up rn rd off => some (loadAt .half rd (c.effHdt m up rn off))
  | .ldrsb _ m up rn rd off => some (loadAt .signedByte rd (c.effHdt m up rn off))
  | .ldrsh _ m up rn rd off => some (loadAt .signedHalf rd (c.effHdt m up rn off))
  | .tLdrPc rd imm8 => some ⟨.word, loReg rd, ((c.instrAddr + 4#32) &&& ~~~3#32) + BitVec.ofNat 32 (4 * imm8.toNat), none⟩
  | .tLdrReg ro rb rd => some ⟨.word, loReg rd, c.low rb + c.low ro, none⟩
  | .tLdrbReg ro rb rd => some ⟨.byte, loReg rd, c.low rb + c.low ro, none⟩
  | .tLdrsbReg ro rb rd => some ⟨.signedByte, loReg rd, c.low rb + c.low ro, none⟩
  | .tLdrhReg ro rb rd => some ⟨.half, loReg rd, c.low rb + c.low ro, none⟩
  | .tLdrshReg ro rb rd => some ⟨.signedHalf, loReg rd, c.low rb + c.low ro, none⟩
  | .tLdrImm imm5 rb rd => some ⟨.word, loReg rd, c.lowPlus rb (4 * imm5.toNat), none⟩
  | .tLdrbImm imm5 rb rd => some ⟨.byte, loReg rd, c.lowPlus rb imm5.toNat, none⟩
  | .tLdrhImm imm5 rb rd => some ⟨.half, loReg rd, c.lowPlus rb (2 * imm5.toNat), none⟩
  | .tLdrSp rd imm8 => some ⟨.word, loReg rd, c.reg .r13 + BitVec.ofNat 32 (4 * imm8.toNat), none⟩
  | _ => none

/-- One single store: its width, data register and address, and the write-back. -/
structure Store where
  width : Width
  rd : Reg
  addr : Word
  wb : Option (Reg × Word)

/-- A store at an effective address. -/
def storeAt (w : Width) (rd : Reg) (e : Effective) : Store := ⟨w, rd, e.addr, e.wb⟩

/-- The single stores (43_arm_loadstore.md R219, R221, R223, R225, R228; 45_thumb.md R299, R300, R303, R307, R309,
R311, R313). -/
def Instr.store? (i : Instr) (c : CoreState) : Option Store :=
  match i with
  | .strImm _ m up rn rd imm12 => some (storeAt .word rd (c.effImm m up rn imm12))
  | .strReg _ m up rn rd amount ty rm => some (storeAt .word rd (c.effReg m up rn amount ty rm))
  | .strbImm _ m up rn rd imm12 => some (storeAt .byte rd (c.effImm m up rn imm12))
  | .strbReg _ m up rn rd amount ty rm => some (storeAt .byte rd (c.effReg m up rn amount ty rm))
  | .strtImm _ up rn rd imm12 => some (storeAt .word rd (c.effImm .post up rn imm12))
  | .strtReg _ up rn rd amount ty rm => some (storeAt .word rd (c.effReg .post up rn amount ty rm))
  | .strbtImm _ up rn rd imm12 => some (storeAt .byte rd (c.effImm .post up rn imm12))
  | .strbtReg _ up rn rd amount ty rm => some (storeAt .byte rd (c.effReg .post up rn amount ty rm))
  | .strh _ m up rn rd off => some (storeAt .half rd (c.effHdt m up rn off))
  | .tStrReg ro rb rd => some ⟨.word, loReg rd, c.low rb + c.low ro, none⟩
  | .tStrbReg ro rb rd => some ⟨.byte, loReg rd, c.low rb + c.low ro, none⟩
  | .tStrhReg ro rb rd => some ⟨.half, loReg rd, c.low rb + c.low ro, none⟩
  | .tStrImm imm5 rb rd => some ⟨.word, loReg rd, c.lowPlus rb (4 * imm5.toNat), none⟩
  | .tStrbImm imm5 rb rd => some ⟨.byte, loReg rd, c.lowPlus rb imm5.toNat, none⟩
  | .tStrhImm imm5 rb rd => some ⟨.half, loReg rd, c.lowPlus rb (2 * imm5.toNat), none⟩
  | .tStrSp rd imm8 => some ⟨.word, loReg rd, c.reg .r13 + BitVec.ofNat 32 (4 * imm8.toNat), none⟩
  | _ => none

/-- The value the registers hold after a write-back, if there is one. -/
def WbDone (s t : State) (wb : Option (Reg × Word)) : Prop := ∀ r v, wb = some (r, v) → t.cur.regs.get (s.physOf r) = v

/-! ## Block transfers -/

/-- One block transfer: the register list, the address of its first word, whether it names the USR bank, and the
write-back. -/
structure BlockMove where
  list : BitVec 16
  start : Word
  user : Bool
  wb : Option (Reg × Word)

/-- How many of the bits of a list below bit `n` are set. -/
def setBits (list : BitVec 16) (n : Nat) : Nat := ((List.range n).filter fun j => list.getLsbD j).length

/-- Where a block transfer of `n` registers from base `b` starts, and the write-back value (43_arm_loadstore.md R238). -/
def blockRow (bm : BlockMode) (b : Int) (n : Nat) : Int × Int :=
  match bm with
  | .ia => (b, b + 4 * n)
  | .ib => (b + 4, b + 4 * n)
  | .da => (b - 4 * n + 4, b - 4 * n)
  | .db => (b - 4 * n, b - 4 * n)

/-- The block transfer of an LDM or STM, its first word at the start aligned down to 4 (43_arm_loadstore.md R237,
R238). -/
def blockVia (c : CoreState) (bm : BlockMode) (user w : Bool) (rn : Reg) (list : BitVec 16) : BlockMove :=
  let row := blockRow bm (c.reg rn).toNat (setBits list 16)
  ⟨list, BitVec.ofInt 32 row.1 &&& ~~~3#32, user, if w then some (rn, BitVec.ofInt 32 row.2) else none⟩

/-- The block loads: LDM without an exception return, POP and LDMIA (43_arm_loadstore.md R239, 45_thumb.md R320,
R322). -/
def Instr.blockLoad? (i : Instr) (c : CoreState) : Option BlockMove :=
  match i with
  | .ldm _ bm s w rn list => if s && listHas list .r15 then none else some (blockVia c bm s w rn list)
  | .tPop pc list => some (blockVia c .ia false true .r13 (popList pc list))
  | .tLdmia rb list => some (blockVia c .ia false true (loReg rb) (list.setWidth 16))
  | _ => none

/-- The block stores: STM, PUSH and STMIA (43_arm_loadstore.md R240, 45_thumb.md R319, R321). -/
def Instr.blockStore? (i : Instr) (c : CoreState) : Option BlockMove :=
  match i with
  | .stm _ bm s w rn list => some (blockVia c bm s w rn list)
  | .tPush lr list => some (blockVia c .db false true .r13 (pushList lr list))
  | .tStmia rb list => some (blockVia c .ia false true (loReg rb) (list.setWidth 16))
  | _ => none

/-- The address of a register of a block transfer: increasing number, increasing address (43_arm_loadstore.md
R238). -/
def BlockMove.addrOf (b : BlockMove) (i : Reg) : Word := b.start + BitVec.ofNat 32 (4 * setBits b.list (regNumber i))

/-- The physical register a block transfer names (43_arm_loadstore.md R239, R240). -/
def BlockMove.bank (b : BlockMove) (s : State) (i : Reg) : PhysReg := phys i (if b.user then .usr else s.cur.mode)

/-! ## Branches -/

/-- One branch: the target before alignment, the value r14 receives, if any, and the state at the target. -/
structure Branch where
  target : Word
  link : Option Word
  thumb : Bool

/-- The branches that are taken (44_arm_branch_system.md R245 to R249; 45_thumb.md R293, R295 to R297, R323, R325, R344,
R345). -/
def Instr.branch? (i : Instr) (c : CoreState) : Option Branch :=
  let a := c.instrAddr
  match i with
  | .b _ off => some ⟨a + 8#32 + BitVec.ofInt 32 (4 * off.toInt), none, false⟩
  | .bl _ off => some ⟨a + 8#32 + BitVec.ofInt 32 (4 * off.toInt), some (a + 4#32), false⟩
  | .bx _ rm => some ⟨c.reg rm, none, (c.reg rm).getLsbD 0⟩
  | .blxImm h off =>
    some ⟨a + 8#32 + BitVec.ofInt 32 (4 * off.toInt + if h then 2 else 0), some (a + 4#32), true⟩
  | .blxReg _ rm => some ⟨c.reg rm, some (a + 4#32), (c.reg rm).getLsbD 0⟩
  | .tAddHi rd rm => if rd = .r15 then some ⟨a + 4#32 + c.reg rm, none, true⟩ else none
  | .tMovHi rd rm => if rd = .r15 then some ⟨c.reg rm, none, true⟩ else none
  | .tBx rm => some ⟨c.reg rm, none, (c.reg rm).getLsbD 0⟩
  | .tBlxReg rm => some ⟨c.reg rm, some ((a + 2#32) ||| 1#32), (c.reg rm).getLsbD 0⟩
  | .tBCond cond off =>
    if checkCondition cond c.cpsr then some ⟨a + 4#32 + BitVec.ofInt 32 (2 * off.toInt), none, true⟩ else none
  | .tB off => some ⟨a + 4#32 + BitVec.ofInt 32 (2 * off.toInt), none, true⟩
  | .tBlSuffix off => some ⟨c.reg .r14 + BitVec.ofNat 32 (2 * off.toNat), some ((a + 2#32) ||| 1#32), true⟩
  | .tBlxSuffix off => some ⟨c.reg .r14 + BitVec.ofNat 32 (4 * off.toNat), some ((a + 2#32) ||| 1#32), false⟩
  | _ => none

/-- The instructions that do nothing: PLD, and B<cond> of Thumb when its condition fails (43_arm_loadstore.md R243,
45_thumb.md R323). -/
def Instr.idleOn (i : Instr) (c : CoreState) : Prop :=
  match i with
  | .pld .. => True
  | .tBCond cond _ => checkCondition cond c.cpsr = false
  | _ => False

/-- An address aligned to the instruction width of a state (41_pipeline.md R158). -/
def alignTarget (thumb : Bool) (v : Word) : Word := if thumb then v &&& ~~~1#32 else v &&& ~~~3#32

/-! ## Status transfers -/

/-- An MSR: whether it names the spsr, its field mask and its operand (30_encoding.md R91, 42_arm_dataproc.md R192). -/
def Instr.msr? (i : Instr) (c : CoreState) : Option (Bool × BitVec 4 × Word) :=
  match i with
  | .msrReg _ spsr fields rm => some (spsr, fields, c.reg rm)
  | .msrImm _ spsr fields rot imm8 => some (spsr, fields, rotated rot imm8)
  | _ => none

/-! ## Software interrupts -/

/-- The service number of a SWI (44_arm_branch_system.md R250, 45_thumb.md R324). -/
def Instr.swi? : Instr → Option (BitVec 8)
  | .swi _ comment => some (comment.extractLsb' 16 8)
  | .tSwi n => some n
  | _ => none

/-- Between `s` and `t` nothing changes but, of the core that holds the turn, the idle state and its latches, the
cycle counter and the scratch lists of slots; and its ports. -/
def IdleFrame (s t : State) : Prop :=
  t = { s with
        cores := s.cores.set s.turn { s.cur with
          idleState := t.cur.idleState, waitCount := t.cur.waitCount, waitAnySel := t.cur.waitAnySel,
          cycles := t.cur.cycles, slot0 := t.cur.slot0, slot1 := t.cur.slot1, slot2 := t.cur.slot2 }
        ports := s.ports.set s.turn t.curPorts }
    ∧ (∀ j, (t.cur.slot j).word = (s.cur.slot j).word ∧ (t.cur.slot j).tag = (s.cur.slot j).tag)
    ∧ t.cur.execSlot.rmask = 0#16 ∧ s.cur.cycles < t.cur.cycles

/-- The machine after a stop: running cleared, the record written, nothing else (00_scope.md R14). -/
def Stopped (s t : State) (d : Diag) : Prop :=
  t = { s with cores := s.cores.set s.turn { s.cur with running := false, diag := some d } }

end Sys2Proof
end

