-- ==== Sys2Proof/Certificates/Slice0/Obligations.lean ====
section
/-! DEFINITION. The statements for the provers.  `Runs i s` says that the instruction is executed in its own state, on a
core that has it, with its condition passed; every per-instruction statement concludes that `exec` answers a next state
and says what that state is, frame included. -/

open Sys2Proof Sys2Proof.Machine

/-! ## Encoding -/

/-- Decoding the bytes of a well-formed ARM instruction gives it back, whatever follows (30_encoding.md R88, R95). -/
def Obligations.DecodeEncodeArm : Prop :=
  ∀ (k : CoreId) (i : Instr) (rest : List Byte), i.wf k = true → i.isThumb = false →
    decode k false (encodeBytes i ++ rest) = .ok (i, rest)

/-- Decoding the bytes of a well-formed Thumb instruction gives it back, whatever follows (30_encoding.md R93, R97). -/
def Obligations.DecodeEncodeThumb : Prop :=
  ∀ (k : CoreId) (i : Instr) (rest : List Byte), i.wf k = true → i.isThumb = true →
    decode k true (encodeBytes i ++ rest) = .ok (i, rest)

/-- What the decoder answers is a well-formed instruction of the core and of the state (30_encoding.md R99, R103). -/
def Obligations.DecodedIsWellFormed : Prop :=
  ∀ (k : CoreId) (thumb : Bool) (w : Word) (i : Instr), decodeWord k thumb w = .ok i →
    i.wf k = true ∧ i.isThumb = thumb

/-- Words written out from the encoding tables decode to the instructions they stand for (the examples of R179, R177,
R200, R218, R239, R246, R290, R320, R343). -/
def Obligations.DecodeWordsSanity : Prop :=
  decodeWord .fast false 0xE0910002#32 = .ok (.addShiftImm .al true .r1 .r0 0#5 .lsl .r2)
  ∧ decodeWord .slow false 0xE25EF004#32 = .ok (.subImm .al true .r14 .r15 0#4 4#8)
  ∧ decodeWord .fast false 0xE16F0F11#32 = .ok (.clz .al .r0 .r1)
  ∧ decodeWord .fast false 0xE5B10004#32 = .ok (.ldrImm .al .pre true .r1 .r0 4#12)
  ∧ decodeWord .slow false 0xEB000010#32 = .ok (.bl .al 16#24)
  ∧ decodeWord .fast false 0xE8B1000C#32 = .ok (.ldm .al .ia false true .r1 0x000C#16)
  ∧ decodeWord .fast true 0x4348#32 = .ok (.tMulAlu .r1 .r0)
  ∧ decodeWord .slow true 0xBD01#32 = .ok (.tPop true 1#8)
  ∧ decodeWord .fast true 0xF7FF#32 = .ok (.tBlPrefix 0x7FF#11)

/-! ## The step -/

/-- A tick in which the core that holds the turn is about to dispatch a decoded instruction is `exec` of that
instruction, with the start of the tick before it and the interrupt dispatch, the flush or advance and the budget after
it (60_exceptions.md R377, 41_pipeline.md R142, R149). -/
def Obligations.StepRunsDecoded : Prop :=
  ∀ (s : State) (i : Instr),
    s.sessionHalted = false → s.cores.fast.running = true → s.cores.slow.running = true → s.debugHalted = false →
    s.bpResume = false → s.breakpoints.contains s.cur.instrAddr = false → s.cur.idleState = .running →
    decodeWord s.turn (psrT s.cur.cpsr) s.cur.execSlot.word = .ok i → s.cur.execSlot.tag = i.tag →
    step s = match exec i s.beginTick.frontEnd.recordDispatch with
      | .next t => .next t.afterExecute.settle
      | .fault f => .fault f
      | .refused r => .refused r

/-- Every step answers a next state: no step faults and none is refused (20_memory.md R69, 60_exceptions.md R358). -/
def Obligations.StepAnswersNext : Prop := ∀ s : State, ∃ t, step s = .next t

/-- After a flush the word at r15 reaches execute in the third pipeline cycle, with its class and with A equal to its
address; the two cycles before execute nothing and report FILLING (41_pipeline.md R140, R144, R145, R148, R162). -/
def Obligations.FetchReachesExecute : Prop :=
  ∀ s : State, s.cur.ptr = 0 → (∀ j, s.cur.slot j = Slot.empty) → s.cur.needsFlush = false →
    ∃ s1 s2, s.pipelineCycle = .next s1 ∧ s1.pipelineCycle = .next s2
      ∧ s1.cur.dbgTag = .FILLING ∧ s2.cur.dbgTag = .FILLING
      ∧ (let w : Word :=
          if psrT s.cur.cpsr then (s.half (s.cur.regs.r15 &&& ~~~1#32)).setWidth 32 else s.word (s.cur.regs.r15 &&& ~~~3#32)
        let t := s2.frontEnd
        t.cur.execSlot.word = w ∧ t.cur.execSlot.tag = decodeTag s.turn (psrT s.cur.cpsr) w
          ∧ t.cur.instrAddr = s.cur.regs.r15 ∧ t.cur.cpsr = s.cur.cpsr ∧ MemSame s t
          ∧ RegsSame (fun p => p = .r15) s t)

/-- The end of a pipeline cycle: a requested flush resets the pointer and empties every slot, otherwise r15 advances by
the instruction width and the pointer by one (41_pipeline.md R142, R157, R160).  The last field of an empty slot, the
targets of staged registers, and its cleared value are the model's own (notes/assumptions/15.md). -/
def Obligations.FlushOrAdvance : Prop :=
  ∀ c : CoreState,
    let empty : Slot := ⟨0#32, .FILLING, 0#16, RegMap.const 0#32, RegMap.const 0#32, RegMap.ofFn fun i => phys i .usr⟩
    (c.needsFlush = true →
      c.endCycle = { c with ptr := 0, slot0 := empty, slot1 := empty, slot2 := empty, needsFlush := false })
    ∧ (c.needsFlush = false →
      c.endCycle = { c with
        regs := { c.regs with r15 := c.regs.r15 + (if psrT c.cpsr then 2#32 else 4#32) }, ptr := c.ptr + 1 })

/-! ## Invariants -/

/-- The machine after reset satisfies the invariant of a run (10_state.md R52, R53). -/
def Obligations.ResetInv : Prop := State.reset.Inv

/-- Every step keeps memory in canonical form: sorted addresses below 2^32, no entry 0.  The form is the model's own
(notes/assumptions/2.md); the writes are those of 20_memory.md R62 and of a pulse (60_exceptions.md R353). -/
def Obligations.StepKeepsMemoryCanonical : Prop :=
  ∀ s t : State, Memory.wf s.mem = true → step s = .next t → Memory.wf t.mem = true

/-- Every step keeps both modes legal and every reserved bit of every status register 0 (10_state.md R27, R29, R30). -/
def Obligations.StepKeepsStatusLegal : Prop :=
  ∀ s t : State, (∀ k, (s.cores.get k).PsrInv k) → step s = .next t → ∀ k, (t.cores.get k).PsrInv k

/-- Every step keeps both program counters aligned to the instruction width of their state (41_pipeline.md R158). -/
def Obligations.StepKeepsPcAligned : Prop :=
  ∀ s t : State, (∀ k, (s.cores.get k).PcInv) → step s = .next t → ∀ k, (t.cores.get k).PcInv

/-- Every step keeps the pipeline's invariant: the words of the slots are words of the current state, decoded slots hold
the tag of their word, and a running core has nothing staged and no flush pending (41_pipeline.md R146, R147, R155). -/
def Obligations.StepKeepsSlots : Prop :=
  ∀ s t : State, (∀ k, (s.cores.get k).SlotInv k) → step s = .next t → ∀ k, (t.cores.get k).SlotInv k

/-- Every step keeps exactly one turn, and bus_owner names its holder (10_state.md R45, 60_exceptions.md R388). -/
def Obligations.StepKeepsTurn : Prop := ∀ s t : State, s.TurnInv → step s = .next t → t.TurnInv

/-- A step leaves the state and the ports of the core that does not hold the turn, the parameters and the breakpoints as
they were (60_exceptions.md R377, R396; 10_state.md R51). -/
def Obligations.StepLeavesOtherCore : Prop :=
  ∀ (s t : State) (k : CoreId), k ≠ s.turn → step s = .next t →
    t.cores.get k = s.cores.get k ∧ t.ports.get k = s.ports.get k ∧ t.cfg = s.cfg ∧ t.breakpoints = s.breakpoints

/-- In user mode no instruction but a trapping SWI changes the mode, the interrupt masks, a saved status register or a
register of a privileged bank (60_exceptions.md R359; 42_arm_dataproc.md R192, R212; 10_state.md R26). -/
def Obligations.UserModeKeepsPrivilege : Prop :=
  ∀ (i : Instr) (s t : State), psrMode? s.cur.cpsr = some .usr → s.cur.execSlot.rmask = 0#16 →
    (s.cfg.swiMode = .hle ∨ i.swi? = none) → exec i s = .next t →
    t.cur.cpsr &&& 0xDF#32 = s.cur.cpsr &&& 0xDF#32
    ∧ t.cur.spsrFiq = s.cur.spsrFiq ∧ t.cur.spsrSvc = s.cur.spsrSvc ∧ t.cur.spsrAbt = s.cur.spsrAbt
    ∧ t.cur.spsrIrq = s.cur.spsrIrq ∧ t.cur.spsrUnd = s.cur.spsrUnd
    ∧ RegsSame (fun p => ∃ r, p = phys r .usr) s t

/-! ## Reset, halt, scheduler -/

/-- A reset of either core, and the reset at launch, reinitialise the scheduler (10_state.md R53). -/
def Obligations.SchedulerReset : Prop :=
  (∀ (s : State) (k : CoreId),
    let t := s.resetCore k
    t.budget = s.cfg.initBudget ∧ t.myTurn = ⟨true, false⟩ ∧ t.busOwner = .fast ∧ t.sessionHalted = false
      ∧ t.debugHalted = false ∧ t.bpResume = false)
  ∧ State.reset.budget = 0 ∧ State.reset.myTurn = ⟨true, false⟩ ∧ State.reset.busOwner = .fast
  ∧ State.reset.sessionHalted = false ∧ State.reset.debugHalted = false ∧ State.reset.bpResume = false

/-- The state of a core after reset under the ARCHITECTURAL profile, and the other core untouched by a reset of one
(10_state.md R52).  The registers' INIT_GPR and the saved status registers at 0 are the spec's own defaults for values
it calls architecturally unspecified (notes/assumptions/5.md); so this is a derived statement. -/
def Obligations.CoreReset : Prop :=
  ∀ (s : State) (k : CoreId), s.cfg.resetProfile = .architectural →
    let t := s.resetCore k
    let c := t.cores.get k
    c.regs = { s.cfg.initGpr.get k with r15 := s.cfg.vbase.get k } ∧ c.cpsr = 0x000000D3#32
    ∧ c.spsrFiq = 0#32 ∧ c.spsrSvc = 0#32 ∧ c.spsrAbt = 0#32 ∧ c.spsrIrq = 0#32 ∧ c.spsrUnd = 0#32
    ∧ (∀ j, (c.slot j).tag = .FILLING ∧ (c.slot j).word = 0#32 ∧ (c.slot j).rmask = 0#16)
    ∧ c.ptr = 0 ∧ c.needsFlush = false ∧ c.running = true ∧ c.idleState = .running ∧ c.waitCount = 0#32
    ∧ c.waitAnySel = 0#32 ∧ c.cycles = 0 ∧ c.dbgTag = .FILLING ∧ c.dbgOperand = 0#32 ∧ c.diag = none
    ∧ ∀ k', k' ≠ k → t.cores.get k' = s.cores.get k'

/-- A tick that finds a core stopped halts the session, and no tick after that changes any state (60_exceptions.md
R376). -/
def Obligations.HaltIsFinal : Prop :=
  ∀ s : State,
    (s.sessionHalted = true → step s = .next s)
    ∧ (s.sessionHalted = false → (s.cores.fast.running = false ∨ s.cores.slow.running = false) →
        step s = .next { s with sessionHalted := true })
    ∧ ∀ t, step s = .next t → s.sessionHalted = false → s.cores.fast.running = true → s.cores.slow.running = true →
        t.sessionHalted = false

/-- A tick of a halted debugger does nothing; a breakpoint at the instruction about to dispatch halts the tick with
nothing else changed, but for the tick after a resume, which proceeds (60_exceptions.md R355, R356). -/
def Obligations.DebuggerHolds : Prop :=
  ∀ s : State, s.sessionHalted = false → s.cores.fast.running = true → s.cores.slow.running = true →
    (s.debugHalted = true → step s = .next s)
    ∧ (s.debugHalted = false → s.cur.idleState = .running → s.cur.execSlot.decoded = true →
        (s.bpResume = false → s.breakpoints.contains s.cur.instrAddr = true → step s = .next { s with debugHalted := true })
        ∧ (s.bpResume = true → step s = State.work { s with bpResume := false }))

/-- The budget is charged the cycles of the tick, in FAST cycles; when it is then not above 0 the turn passes, the budget
is negated, and bus_owner names the core with the turn (60_exceptions.md R381, R382, R383, R385). -/
def Obligations.SettleHandsOff : Prop :=
  ∀ s : State, s.TurnInv →
    let cost : Int := if s.busOwner = .fast then s.cur.cycles else 2 * s.cur.cycles
    let b := s.budget - cost
    let other : CoreId := if s.busOwner = .fast then .slow else .fast
    (0 < b → s.settle = { s with budget := b })
    ∧ (b ≤ 0 → s.settle =
        { s with budget := -b, busOwner := other, myTurn := ⟨other == .fast, other == .slow⟩ })

/-- The budget tells exactly how far FAST is ahead of twice SLOW: if it does before a tick's work, with F and S the
cycles charged so far, it does after, with the cycles of the tick added (60_exceptions.md R387). -/
def Obligations.BudgetTracksDrift : Prop :=
  ∀ (s t : State) (fast slow : Int), s.TurnInv →
    s.budget = (if s.busOwner = .fast then 2 * slow - fast else fast - 2 * slow) → s.work = .next t →
    let n : Int := (t.cores.get s.busOwner).cycles
    let fast' := if s.busOwner = .fast then fast + n else fast
    let slow' := if s.busOwner = .fast then slow else slow + n
    t.budget = (if t.busOwner = .fast then 2 * slow' - fast' else fast' - 2 * slow')

/-! ## Idle controller and interrupts -/

/-- The idle step in each of the three idle states (60_exceptions.md R370 to R373, R379). -/
def Obligations.IdleStepRules : Prop :=
  ∀ s : State,
    let c := s.cur
    let p := s.curPorts
    let found := p.ie &&& p.iflag &&& lineMask s.turn ≠ 0#32
    let any := c.waitAnySel = 0#32 ∧ p.iflag &&& lineMask s.turn ≠ 0#32
    let after (idle : IdleState) (count : Word) (ports : Ports) : State := { s with
      cores := s.cores.set s.turn
        { c with idleState := idle, waitCount := count, cycles := c.cycles + s.cfg.idleCycles s.turn }
      ports := s.ports.set s.turn ports }
    (c.idleState = .halted → found → s.idleStep = after .running c.waitCount p)
    ∧ (c.idleState = .halted → ¬found → s.idleStep = after .halted c.waitCount p)
    ∧ (c.idleState = .waitLoop → c.waitCount.toNat ≤ 1 → s.idleStep = after .running 0#32 p)
    ∧ (c.idleState = .waitLoop → 1 < c.waitCount.toNat → s.idleStep = after .waitLoop (c.waitCount - 1#32) p)
    ∧ (c.idleState = .waitInterrupt → (any ∨ found) →
        s.idleStep = after .running c.waitCount { p with ie := p.ieSaved, iflag := p.ifSaved ||| p.iflag })
    ∧ (c.idleState = .waitInterrupt → ¬(any ∨ found) → s.idleStep = after .waitInterrupt c.waitCount p)

/-- The interrupt dispatch: with IME set, I clear and an enabled line pending it enters IRQ mode at vector 0x18, with the
old cpsr in spsr_irq and NIA + 4 in r14_irq; otherwise it does nothing (60_exceptions.md R360, R362, R363). -/
def Obligations.IrqDispatchEnters : Prop :=
  ∀ s : State,
    let c := s.cur
    let p := s.curPorts
    let t := s.irqDispatch
    let nia := if c.needsFlush then c.regs.r15 else c.regs.r15 - (if psrT c.cpsr then 2#32 else 4#32)
    let pending := p.ime.getLsbD 0 = true ∧ psrI c.cpsr = false ∧ p.ie &&& p.iflag &&& lineMask s.turn ≠ 0#32
    (pending →
      t = { s with cores := s.cores.set s.turn { c with
              regs := t.cur.regs, cpsr := t.cur.cpsr, spsrIrq := c.cpsr &&& psrMask s.turn, needsFlush := true } }
      ∧ psrM t.cur.cpsr = 0x12#5 ∧ psrI t.cur.cpsr = true ∧ psrT t.cur.cpsr = false
      ∧ t.cur.cpsr &&& ~~~0xBF#32 = c.cpsr &&& ~~~0xBF#32 &&& psrMask s.turn
      ∧ t.cur.regs.r14Irq = nia + 4#32
      ∧ t.cur.regs.r15 = (s.cfg.vbase.get s.turn + 0x18#32) &&& ~~~3#32
      ∧ RegsSame (fun q => q = .r15 ∨ q = .r14Irq) s t)
    ∧ (¬pending → t = s)

/-- `SUBS pc, r14, #4` right after an interrupt entry restores the interrupted cpsr and resumes at NIA, in either state
(60_exceptions.md R362, R375; 42_arm_dataproc.md R174). -/
def Obligations.IrqThenReturn : Prop :=
  ∀ s : State, s.irqPending = true → s.cur.PsrInv s.turn → s.cur.execSlot.rmask = 0#16 →
    ∃ t, exec (.subImm .al true .r14 .r15 0#4 4#8) s.irqDispatch = .next t
      ∧ t.cur.cpsr = s.cur.cpsr ∧ t.cur.needsFlush = true
      ∧ t.cur.regs.r15 = alignTarget (psrT s.cur.cpsr) s.cur.nextInstr
      ∧ RegsSame (fun q => q = .r15 ∨ q = .r14Irq) s t ∧ NoAccess s t

/-! ## Registers, status registers, memory -/

/-- Which modes name the same physical register by a number (10_state.md R22, R23, R24). -/
def Obligations.BanksByMode : Prop :=
  ∀ (i : Reg) (m m' : Mode), phys i m = phys i m' ↔
    regNumber i ≤ 7 ∨ i = .r15 ∨ (8 ≤ regNumber i ∧ regNumber i ≤ 12 ∧ (m = .fiq ↔ m' = .fiq))
      ∨ m = m' ∨ (m = .usr ∧ m' = .sys) ∨ (m = .sys ∧ m' = .usr)

/-- `get_spsr` and `set_spsr`: the saved-status register of the current mode, stored under the mask of the core; in USR
and SYS the live cpsr, and no write (10_state.md R26). -/
def Obligations.SpsrAccess : Prop :=
  ∀ (c : CoreState) (k : CoreId) (v : Word),
    (psrMode? c.cpsr = some .usr ∨ psrMode? c.cpsr = some .sys → c.getSpsr = c.cpsr ∧ c.setSpsr k v = c)
    ∧ (psrMode? c.cpsr = some .fiq → c.getSpsr = c.spsrFiq ∧ c.setSpsr k v = { c with spsrFiq := v &&& psrMask k })
    ∧ (psrMode? c.cpsr = some .svc → c.getSpsr = c.spsrSvc ∧ c.setSpsr k v = { c with spsrSvc := v &&& psrMask k })
    ∧ (psrMode? c.cpsr = some .abt → c.getSpsr = c.spsrAbt ∧ c.setSpsr k v = { c with spsrAbt := v &&& psrMask k })
    ∧ (psrMode? c.cpsr = some .irq → c.getSpsr = c.spsrIrq ∧ c.setSpsr k v = { c with spsrIrq := v &&& psrMask k })
    ∧ (psrMode? c.cpsr = some .und → c.getSpsr = c.spsrUnd ∧ c.setSpsr k v = { c with spsrUnd := v &&& psrMask k })

/-- After a word write at an aligned address, each byte and each halfword of the word reads as its part of the value, the
word reads as the value, and every other byte reads as before (20_memory.md R62, R63, R76).  R63 is the spec's own
inference from R62; that shared memory reads as it was written is log entry 3. -/
def Obligations.ReadAfterWordWrite : Prop :=
  ∀ (m : List Host.Cell) (a v : Word), Memory.wf m = true → a.toNat % 4 = 0 →
    let m' := memStore m a .word v
    (∀ n < 4, memLoad m' (a + BitVec.ofNat 32 n) .byte = (v.extractLsb' (8 * n) 8).setWidth 32)
    ∧ (∀ j < 2, memLoad m' (a + BitVec.ofNat 32 (2 * j)) .half = (v.extractLsb' (16 * j) 16).setWidth 32)
    ∧ memLoad m' a .word = v
    ∧ ∀ b, ¬InAccess .word a b → memByte m' b = memByte m b

/-! ## Flags and shifter -/

/-- `check_condition` on the sixteen condition fields (40_alu_shifter.md R128). -/
def Obligations.ConditionTable : Prop :=
  ∀ p : Word,
    let n := p.getLsbD 31
    let z := p.getLsbD 30
    let c := p.getLsbD 29
    let v := p.getLsbD 28
    (checkCondition .eq p ↔ z) ∧ (checkCondition .ne p ↔ ¬z) ∧ (checkCondition .cs p ↔ c) ∧ (checkCondition .cc p ↔ ¬c)
    ∧ (checkCondition .mi p ↔ n) ∧ (checkCondition .pl p ↔ ¬n) ∧ (checkCondition .vs p ↔ v) ∧ (checkCondition .vc p ↔ ¬v)
    ∧ (checkCondition .hi p ↔ c ∧ ¬z) ∧ (checkCondition .ls p ↔ ¬c ∨ z)
    ∧ (checkCondition .ge p ↔ n = v) ∧ (checkCondition .lt p ↔ n ≠ v)
    ∧ (checkCondition .gt p ↔ ¬z ∧ n = v) ∧ (checkCondition .le p ↔ z ∨ n ≠ v)
    ∧ checkCondition .al p ∧ ¬checkCondition .nv p

/-- The logical flag update, and the results of the eight logical operations (40_alu_shifter.md R126; 42_arm_dataproc.md
R175, R176, R183, R184, R187 to R190). -/
def Obligations.LogicalOperations : Prop :=
  (∀ (cpsr res : Word) (co : Option Bool),
    let p := updateLogical cpsr res co
    psrN p = res.getLsbD 31 ∧ (psrZ p = true ↔ res = 0#32) ∧ psrC p = co.getD (psrC cpsr) ∧ psrV p = psrV cpsr
      ∧ p &&& 0x0FFFFFFF#32 = cpsr &&& 0x0FFFFFFF#32)
  ∧ ∀ (cpsr a sh : Word) (co : Option Bool),
    let upd (res : Word) := (res, updateLogical cpsr res co)
    dpCompute .and cpsr a sh co = upd (a &&& sh) ∧ dpCompute .tst cpsr a sh co = upd (a &&& sh)
    ∧ dpCompute .eor cpsr a sh co = upd (a ^^^ sh) ∧ dpCompute .teq cpsr a sh co = upd (a ^^^ sh)
    ∧ dpCompute .orr cpsr a sh co = upd (a ||| sh) ∧ dpCompute .bic cpsr a sh co = upd (a &&& ~~~sh)
    ∧ dpCompute .mov cpsr a sh co = upd sh ∧ dpCompute .mvn cpsr a sh co = upd (~~~sh)

/-- ADD, CMN and ADC: the sum modulo 2^32; C is the carry out of the exact unsigned sum, V whether the exact signed sum
is outside 32 bits (40_alu_shifter.md R127, R129, R130; 42_arm_dataproc.md R179, R180, R186). -/
def Obligations.AdditionExact : Prop :=
  ∀ (cpsr a b : Word) (co : Option Bool) (op : DpOp) (cin : Bool),
    ((op = .add ∨ op = .cmn) ∧ cin = false) ∨ (op = .adc ∧ cin = psrC cpsr) →
    let r := dpCompute op cpsr a b co
    let n := a.toNat + b.toNat + cin.toNat
    r.1 = BitVec.ofNat 32 n ∧ psrN r.2 = r.1.getLsbD 31 ∧ (psrZ r.2 = true ↔ r.1 = 0#32)
      ∧ (psrC r.2 = true ↔ 2 ^ 32 ≤ n) ∧ (psrV r.2 = true ↔ ¬InWord (a.toInt + b.toInt + cin.toNat))
      ∧ r.2 &&& 0x0FFFFFFF#32 = cpsr &&& 0x0FFFFFFF#32

/-- SUB, CMP, RSB, SBC and RSC on minuend `m` and subtrahend `n`: the difference modulo 2^32; C is the absence of a
borrow, V whether the exact signed difference is outside 32 bits (40_alu_shifter.md R127, R129, R130; 42_arm_dataproc.md
R177, R178, R181, R182, R185). -/
def Obligations.SubtractionExact : Prop :=
  ∀ (cpsr a b m n : Word) (co : Option Bool) (op : DpOp) (borrow : Bool),
    ((op = .sub ∨ op = .cmp) ∧ m = a ∧ n = b ∧ borrow = false) ∨ (op = .rsb ∧ m = b ∧ n = a ∧ borrow = false)
      ∨ (op = .sbc ∧ m = a ∧ n = b ∧ borrow = !psrC cpsr) ∨ (op = .rsc ∧ m = b ∧ n = a ∧ borrow = !psrC cpsr) →
    let r := dpCompute op cpsr a b co
    r.1 = BitVec.ofInt 32 ((m.toNat : Int) - n.toNat - borrow.toNat) ∧ psrN r.2 = r.1.getLsbD 31
      ∧ (psrZ r.2 = true ↔ r.1 = 0#32) ∧ (psrC r.2 = true ↔ n.toNat + borrow.toNat ≤ m.toNat)
      ∧ (psrV r.2 = true ↔ ¬InWord (m.toInt - n.toInt - borrow.toNat))
      ∧ r.2 &&& 0x0FFFFFFF#32 = cpsr &&& 0x0FFFFFFF#32

/-- The four shift operators bit by bit, their carry-out (40_alu_shifter.md R121 to R124), and, in the last clause, the
bypass of a register amount of 0 (R125).  That ASR by more than 32 acts as ASR by 32, and the bypass of R125, are choices
that the spec marks as its own, not in its source (R123, R125, D20). -/
def Obligations.ShifterBits : Prop :=
  ∀ (v : Word) (s : Nat) (cin : Bool),
    let n := if s = 0 then 32 else s
    (∀ i < 32, (shiftOp .lsl v s cin).1.getLsbD i = (decide (s ≤ i) && v.getLsbD (i - s)))
    ∧ (shiftOp .lsl v s cin).2 = (if s = 0 then none else if s < 32 then some (v.getLsbD (32 - s)) else some false)
    ∧ (∀ i < 32, (shiftOp .lsr v s cin).1.getLsbD i = v.getLsbD (i + n))
    ∧ (shiftOp .lsr v s cin).2 = some (v.getLsbD (n - 1))
    ∧ (∀ i < 32, (shiftOp .asr v s cin).1.getLsbD i = v.getLsbD (min 31 (i + n)))
    ∧ (shiftOp .asr v s cin).2 = some (v.getLsbD (min 31 (n - 1)))
    ∧ (∀ i < 32, (shiftOp .ror v s cin).1.getLsbD i =
        if s = 0 then (if i = 31 then cin else v.getLsbD (i + 1)) else v.getLsbD ((i + s) % 32))
    ∧ (shiftOp .ror v s cin).2 = some (if s = 0 then v.getLsbD 0 else v.getLsbD ((s - 1) % 32))
    ∧ ∀ ty, shiftReg ty v s cin = if s = 0 then (v, none) else shiftOp ty v s cin

/-- The count of leading zeros: 32 of 0, and otherwise the distance of the highest set bit from bit 31
(42_arm_dataproc.md R200). -/
def Obligations.LeadingZerosCounts : Prop :=
  ∀ v : Word, leadingZeros 0#32 = 32
    ∧ (v ≠ 0#32 → leadingZeros v < 32 ∧ v.getLsbD (31 - leadingZeros v) = true
      ∧ ∀ j, 31 - leadingZeros v < j → v.getLsbD j = false)

/-! ## Executing instructions -/

/-- An ARM instruction whose condition fails is charged a sequential access and changes nothing else (41_pipeline.md
R149). -/
def Obligations.ConditionFailedSkips : Prop :=
  ∀ (i : Instr) (c : Cond) (s : State), i.cond? = some c → checkCondition c s.cur.cpsr = false →
    exec i s = .next { s with cores := s.cores.set s.turn { s.cur with
      cycles := s.cur.cycles + s.cfg.seqCost s.turn (if psrT s.cur.cpsr then 2 else 4) s.cur.instrAddr } }

/-- What is not recognized stops its core with UNRECOGNIZED, the word and A, and changes nothing else: an instruction
the core does not have, an unpredictable form, BKPT, and a word that decodes to nothing; in ARM state a word whose
condition fails is skipped, and so are BLX immediate and PLD on SLOW (41_pipeline.md R149, R152; 30_encoding.md R99,
R103, R104; 44_arm_branch_system.md R251; 45_thumb.md R329).  That an instruction a core does not have is asked of
`exec` at all is the model's own (notes/assumptions/16.md and 20.md). -/
def Obligations.StopsUnrecognized : Prop :=
  ∀ s : State,
    let stop (t : State) := Stopped s t ⟨.unrecognized, s.cur.execSlot.word, s.cur.instrAddr⟩
    (∀ i : Instr, i.recognizedOn s.turn = false → i.passes s.cur.cpsr = true →
      (s.turn = .fast ∨ i.isThumb = true ∨ i.cond? ≠ none) → ∃ t, exec i s = .next t ∧ stop t)
    ∧ (∀ i : Instr, s.turn = .slow → i.isThumb = false → i.cond? = none → exec i s = .next s.skip)
    ∧ ∀ e, decodeWord s.turn (psrT s.cur.cpsr) s.cur.execSlot.word = .error e →
      let passes := psrT s.cur.cpsr
        || checkCondition (Cond.ofBits (s.cur.execSlot.word.extractLsb' 28 4)) s.cur.cpsr
      (passes = true → ∃ t, s.executeSlot = .next t ∧ stop t) ∧ (passes = false → s.executeSlot = .next s.skip)

/-- Data processing with a destination other than r15, and the Thumb shifts, moves and operations of formats 1 to 4: the
destination gets the result, the flags are written if the instruction says so, and nothing else changes
(42_arm_dataproc.md R174 to R190; 45_thumb.md R266 to R292).  `Instr.alu?` gives operand 2 and its carry by
`CoreState.sh`, apart from the model's own computation: the immediate rotated by twice its field, with bit 31 as the
carry unless that field is 0; a shift by an immediate; a shift by the low byte of Rs, none where that is 0; and A + 8 for
r15 (30_encoding.md R91; 42_arm_dataproc.md R171, R172, R173, R211). -/
def Obligations.AluWritesItsResult : Prop :=
  ∀ (i : Instr) (s : State) (x : Alu) (rd : Reg), i.alu? s.cur = some x → x.dest = some rd → rd ≠ .r15 → Runs i s →
    ∃ t, exec i s = .next t ∧ Frame s t ∧ NoAccess s t ∧ t.cur.needsFlush = s.cur.needsFlush
      ∧ t.cur.regs.get (s.physOf rd) = (x.result s.cur.cpsr).1
      ∧ RegsSame (fun p => p = s.physOf rd) s t
      ∧ t.cur.cpsr = if x.flags then (x.result s.cur.cpsr).2 &&& psrMask s.turn else s.cur.cpsr

/-- TST, TEQ, CMP and CMN, and the compares of Thumb: the flags are written, no register changes; operand 2 and its
carry as in `Obligations.AluWritesItsResult` (42_arm_dataproc.md R171 to R173, R183 to R186; 45_thumb.md R274, R285,
R287, R288, R294). -/
def Obligations.ComparesSetFlags : Prop :=
  ∀ (i : Instr) (s : State) (x : Alu), i.alu? s.cur = some x → x.dest = none → Runs i s →
    ∃ t, exec i s = .next t ∧ Frame s t ∧ NoAccess s t ∧ t.cur.needsFlush = s.cur.needsFlush
      ∧ RegsSame (fun _ => False) s t ∧ t.cur.cpsr = (x.result s.cur.cpsr).2 &&& psrMask s.turn

/-- Data processing into r15: without S a branch in the current state; with S the current spsr goes into cpsr and the
result, aligned to the restored state, into r15, or the core stops with ILLEGAL_MODE and nothing changes;
operand 2 as in `Obligations.AluWritesItsResult` (42_arm_dataproc.md R171 to R174; 60_exceptions.md R375).  That Q comes
from the spsr with the other bits is log entry 23. -/
def Obligations.DataProcessingIntoPc : Prop :=
  ∀ (i : Instr) (s : State) (x : Alu), i.alu? s.cur = some x → x.dest = some .r15 → Runs i s →
    let res := (x.result s.cur.cpsr).1
    let psr := if x.flags then s.cur.getSpsr else s.cur.cpsr
    (x.flags = false ∨ psrLegal s.cur.getSpsr = true →
      ∃ t, exec i s = .next t ∧ Frame s t ∧ NoAccess s t ∧ t.cur.needsFlush = true
        ∧ t.cur.cpsr &&& psrMask s.turn = psr &&& psrMask s.turn
        ∧ t.cur.regs.r15 = alignTarget (psrT psr) res ∧ RegsSame (fun p => p = .r15) s t)
    ∧ (x.flags = true → psrLegal s.cur.getSpsr = false →
      ∃ t, exec i s = .next t ∧ Stopped s t ⟨.illegalMode, s.cur.getSpsr, s.cur.instrAddr⟩)

/-- MRS, CLZ, SMULW, SMUL<x><y>, and the Thumb instructions that write one register and no flag (42_arm_dataproc.md R191,
R200, R207, R209; 45_thumb.md R293, R295, R315 to R318, R343). -/
def Obligations.PlainWrites : Prop :=
  ∀ (i : Instr) (s : State) (rd : Reg) (v : Word), i.write? s.cur = some (rd, v) → Runs i s →
    ∃ t, exec i s = .next t ∧ Frame s t ∧ NoAccess s t ∧ t.cur.needsFlush = s.cur.needsFlush
      ∧ t.cur.regs.get (s.physOf rd) = v ∧ RegsSame (fun p => p = s.physOf rd) s t ∧ t.cur.cpsr = s.cur.cpsr

/-- MSR to cpsr, bit by bit: the bytes the field mask selects, only the flags byte in user mode, T never, reserved bits
0; a new mode re-fetches at A + 4; an illegal mode stops the core and writes nothing (42_arm_dataproc.md R192;
10_state.md R29). -/
def Obligations.MsrWritesCpsr : Prop :=
  ∀ (i : Instr) (s : State) (fields : BitVec 4) (v : Word), i.msr? s.cur = some (false, fields, v) → Runs i s →
    let new := msrValue s.turn s.cur.cpsr fields v
    (psrLegal new = true →
      ∃ t, exec i s = .next t ∧ Frame s t ∧ NoAccess s t
        ∧ (∀ n < 32, t.cur.cpsr.getLsbD n =
            if n = 5 then psrT s.cur.cpsr
            else (psrMask s.turn).getLsbD n
              && (if fields.getLsbD (n / 8) = true ∧ (psrMode? s.cur.cpsr = some .usr → 24 ≤ n) then v.getLsbD n
                  else s.cur.cpsr.getLsbD n))
        ∧ (if psrM t.cur.cpsr = psrM s.cur.cpsr then
            RegsSame (fun _ => False) s t ∧ t.cur.needsFlush = s.cur.needsFlush
          else
            RegsSame (fun p => p = .r15) s t ∧ t.cur.regs.r15 = alignTarget (psrT s.cur.cpsr) (s.cur.instrAddr + 4#32)
              ∧ t.cur.needsFlush = true))
    ∧ (psrLegal new = false → ∃ t, exec i s = .next t ∧ Stopped s t ⟨.illegalMode, new, s.cur.instrAddr⟩)

/-- MSR to the spsr of the current mode, bit by bit; in USR and SYS it does nothing (42_arm_dataproc.md R192; 10_state.md
R26). -/
def Obligations.MsrWritesSpsr : Prop :=
  ∀ (i : Instr) (s : State) (fields : BitVec 4) (v : Word), i.msr? s.cur = some (true, fields, v) → Runs i s →
    ∃ t, exec i s = .next t ∧ StatusFrame s t ∧ RegsSame (fun _ => False) s t ∧ t.cur.cpsr = s.cur.cpsr
      ∧ t.cur.needsFlush = s.cur.needsFlush
      ∧ ∀ m : Mode, m ≠ .usr → m ≠ .sys →
        (m ≠ s.cur.mode → t.cur.spsrOf m = s.cur.spsrOf m)
        ∧ (m = s.cur.mode → ∀ n < 32, (t.cur.spsrOf m).getLsbD n =
            ((psrMask s.turn).getLsbD n
              && (if fields.getLsbD (n / 8) = true then v.getLsbD n else (s.cur.spsrOf m).getLsbD n)))

/-- MUL, MLA and the MUL of Thumb: the exact product and sum modulo 2^32, and with S the flags N and Z, V unchanged
and C as MUL_C_POLICY has it: unchanged, the value and default of R10, or whatever a free value says (00_scope.md R10;
42_arm_dataproc.md R193, R194, R199; 45_thumb.md R290; the second policy is log entry 26). -/
def Obligations.MultiplyWrites : Prop :=
  ∀ (i : Instr) (s : State) (rd : Reg) (v : Word) (flags : Bool), i.mul32? s.cur = some (rd, v, flags) → Runs i s →
    ∃ t, exec i s = .next t ∧ Frame s t ∧ NoAccess s t ∧ t.cur.needsFlush = s.cur.needsFlush
      ∧ t.cur.regs.get (s.physOf rd) = v ∧ RegsSame (fun p => p = s.physOf rd) s t
      ∧ t.cur.cpsr =
        if flags then s.mulPsr (v.getLsbD 31) (decide (v = 0#32)) else s.cur.cpsr

/-- UMULL, UMLAL, SMULL, SMLAL and SMLAL<x><y>: the exact 64-bit value into RdLo and RdHi, and with S the flags N and Z
over all 64 bits, V unchanged and C as in `Obligations.MultiplyWrites` (42_arm_dataproc.md R195 to R199, R208). -/
def Obligations.LongMultiplyWrites : Prop :=
  ∀ (i : Instr) (s : State) (hi lo : Reg) (v : BitVec 64) (flags : Bool),
    i.mul64? s.cur = some (hi, lo, v, flags) → Runs i s →
    ∃ t, exec i s = .next t ∧ Frame s t ∧ NoAccess s t ∧ t.cur.needsFlush = s.cur.needsFlush
      ∧ t.cur.regs.get (s.physOf lo) = v.extractLsb' 0 32 ∧ t.cur.regs.get (s.physOf hi) = v.extractLsb' 32 32
      ∧ RegsSame (fun p => p = s.physOf lo ∨ p = s.physOf hi) s t
      ∧ t.cur.cpsr =
        if flags then s.mulPsr (v.getLsbD 63) (decide (v = 0#64)) else s.cur.cpsr

/-- QADD, QSUB, QDADD, QDSUB, SMLA<x><y> and SMLAW<y>: the saturated or wrapped value, and Q set when the exact value
does not fit, otherwise as it was (42_arm_dataproc.md R201 to R206; 10_state.md R32). -/
def Obligations.StickyWrites : Prop :=
  ∀ (i : Instr) (s : State) (rd : Reg) (v : Word) (q : Prop), i.sticky? s.cur = some (rd, v, q) → Runs i s →
    ∃ t, exec i s = .next t ∧ Frame s t ∧ NoAccess s t ∧ t.cur.needsFlush = s.cur.needsFlush
      ∧ t.cur.regs.get (s.physOf rd) = v ∧ RegsSame (fun p => p = s.physOf rd) s t
      ∧ (q → t.cur.cpsr = (s.cur.cpsr ||| 0x08000000#32) &&& psrMask s.turn) ∧ (¬q → t.cur.cpsr = s.cur.cpsr)

/-- The single loads into a register other than r15: the value of the load's kind at its address, the write-back (which
a loaded value of the same register overrides), one access, memory and everything else unchanged (43_arm_loadstore.md
R218, R220, R222, R224, R227, R229, R230, R233; 45_thumb.md R298, R301, R302, R304 to R306, R308, R310,
R312, R314).  `Instr.load?` gives the offset, the effective address and the write-back value by `CoreState.effective`, apart from the model's own computation: base plus or minus the
offset modulo 2^32, the base itself where the form is post-indexed (43_arm_loadstore.md R215, R216, R226). -/
def Obligations.LoadsWriteRd : Prop :=
  ∀ (i : Instr) (s : State) (l : Load), i.load? s.cur = some l → l.rd ≠ .r15 → Runs i s →
    ∃ t, exec i s = .next t ∧ Frame s t ∧ MemSame s t ∧ t.traffic.length = s.traffic.length + 1
      ∧ t.cur.needsFlush = s.cur.needsFlush ∧ t.cur.cpsr = s.cur.cpsr
      ∧ t.cur.regs.get (s.physOf l.rd) = l.kind.value s.turn s l.addr
      ∧ (∀ r v, l.wb = some (r, v) → r ≠ l.rd → t.cur.regs.get (s.physOf r) = v)
      ∧ RegsSame (fun p => p = s.physOf l.rd ∨ s.isWb l.wb p) s t

/-- LDR and LDRT into r15: FAST takes the state from bit 0 of the loaded word, SLOW keeps its state; the write-back and
nothing else; address and write-back as in `Obligations.LoadsWriteRd` (43_arm_loadstore.md R215, R216, R218, R222,
R235). -/
def Obligations.LoadsIntoPc : Prop :=
  ∀ (i : Instr) (s : State) (l : Load), i.load? s.cur = some l → l.rd = .r15 → Runs i s →
    let v := l.kind.value s.turn s l.addr
    let thumb := if s.turn = .fast then v.getLsbD 0 else psrT s.cur.cpsr
    ∃ t, exec i s = .next t ∧ Frame s t ∧ MemSame s t ∧ t.cur.needsFlush = true
      ∧ t.cur.regs.r15 = alignTarget thumb v
      ∧ t.cur.cpsr &&& psrMask s.turn = psrSetT s.cur.cpsr thumb &&& psrMask s.turn
      ∧ WbDone s t l.wb ∧ RegsSame (fun p => p = .r15 ∨ s.isWb l.wb p) s t

/-- The single stores: the low bytes of the register (of A + STR_PC_OFFSET for r15) at the aligned address, every other
byte unchanged, one access, the write-back and nothing else; address and write-back as in `Obligations.LoadsWriteRd`
(43_arm_loadstore.md R215, R216, R219, R221, R223, R225, R226, R228, R234; 45_thumb.md R299, R300, R303, R307,
R309, R311, R313). -/
def Obligations.StoresWriteMemory : Prop :=
  ∀ (i : Instr) (s : State) (x : Store), i.store? s.cur = some x → Runs i s → Memory.wf s.mem = true →
    let addr := match x.width with
      | .byte => x.addr
      | .half => x.addr &&& ~~~1#32
      | .word => x.addr &&& ~~~3#32
    let v := if x.rd = .r15 then s.cur.instrAddr + s.cfg.strPcOffset else s.cur.reg x.rd
    ∃ t, exec i s = .next t ∧ Frame s t ∧ t.traffic.length = s.traffic.length + 1
      ∧ t.cur.needsFlush = s.cur.needsFlush ∧ t.cur.cpsr = s.cur.cpsr
      ∧ (∀ n < x.width.bytes, t.byte (addr + BitVec.ofNat 32 n) = v.extractLsb' (8 * n) 8)
      ∧ MemSameOutside x.width addr s t ∧ WbDone s t x.wb ∧ RegsSame (fun p => s.isWb x.wb p) s t

/-- LDRD and STRD move Rd and Rd + 1 between the two words from the address aligned down; address and write-back as
in `Obligations.LoadsWriteRd` (43_arm_loadstore.md R216, R226, R231, R232). -/
def Obligations.DoublewordTransfers : Prop :=
  ∀ (s : State) (c : Cond) (mode : IndexMode) (up : Bool) (rn rd : Reg) (off : HdtOffset),
    let x := s.cur.effHdt mode up rn off
    let lo := x.addr &&& ~~~3#32
    let hi := lo + 4#32
    (Runs (.ldrd c mode up rn rd off) s →
      ∃ t, exec (.ldrd c mode up rn rd off) s = .next t ∧ Frame s t ∧ MemSame s t
        ∧ t.cur.needsFlush = s.cur.needsFlush ∧ t.cur.cpsr = s.cur.cpsr
        ∧ t.cur.regs.get (s.physOf rd) = s.word lo ∧ t.cur.regs.get (s.physOf rd.succ) = s.word hi
        ∧ WbDone s t x.wb
        ∧ RegsSame (fun p => p = s.physOf rd ∨ p = s.physOf rd.succ ∨ s.isWb x.wb p) s t)
    ∧ (Runs (.strd c mode up rn rd off) s → Memory.wf s.mem = true →
      ∃ t, exec (.strd c mode up rn rd off) s = .next t ∧ Frame s t
        ∧ t.cur.needsFlush = s.cur.needsFlush ∧ t.cur.cpsr = s.cur.cpsr
        ∧ t.word lo = s.cur.reg rd ∧ t.word hi = s.cur.reg rd.succ
        ∧ (∀ b, ¬InAccess .word lo b → ¬InAccess .word hi b → memByte t.mem b = memByte s.mem b)
        ∧ WbDone s t x.wb ∧ RegsSame (fun p => s.isWb x.wb p) s t)

/-- SWP and SWPB: Rd gets what memory held, memory gets Rm, in one instruction (43_arm_loadstore.md R241, R242). -/
def Obligations.SwapExchanges : Prop :=
  ∀ (s : State) (c : Cond) (rn rd rm : Reg) (byte : Bool),
    let i : Instr := if byte then .swpb c rn rd rm else .swp c rn rd rm
    let a := s.cur.reg rn
    let w : Width := if byte then .byte else .word
    let addr := if byte then a else a &&& ~~~3#32
    Runs i s → Memory.wf s.mem = true →
    ∃ t, exec i s = .next t ∧ Frame s t ∧ t.traffic.length = s.traffic.length + 2
      ∧ t.cur.needsFlush = s.cur.needsFlush ∧ t.cur.cpsr = s.cur.cpsr
      ∧ t.cur.regs.get (s.physOf rd) = (if byte then LoadKind.byte else .word).value s.turn s a
      ∧ RegsSame (fun p => p = s.physOf rd) s t
      ∧ (∀ n < w.bytes, t.byte (addr + BitVec.ofNat 32 n) = (s.cur.reg rm).extractLsb' (8 * n) 8)
      ∧ MemSameOutside w addr s t

/-- LDM (with S into the user bank), POP and LDMIA of Thumb, without r15 in the list: each register gets its word, the
lowest number from the lowest address, and the base its write-back (43_arm_loadstore.md R237 to R239; 45_thumb.md R320,
R322). -/
def Obligations.BlockLoads : Prop :=
  ∀ (i : Instr) (s : State) (b : BlockMove), i.blockLoad? s.cur = some b → listHas b.list .r15 = false → Runs i s →
    ∃ t, exec i s = .next t ∧ Frame s t ∧ MemSame s t ∧ t.cur.needsFlush = s.cur.needsFlush ∧ t.cur.cpsr = s.cur.cpsr
      ∧ (∀ r, listHas b.list r = true → t.cur.regs.get (b.bank s r) = s.word (b.addrOf r))
      ∧ WbDone s t b.wb
      ∧ RegsSame (fun p => (∃ r, listHas b.list r = true ∧ p = b.bank s r) ∨ s.isWb b.wb p) s t

/-- LDM without S, and POP, with r15 in the list: as the other block loads, and r15 takes the loaded word, with the state
from its bit 0 on FAST (43_arm_loadstore.md R235, R239; 45_thumb.md R320). -/
def Obligations.BlockLoadsIntoPc : Prop :=
  ∀ (i : Instr) (s : State) (b : BlockMove), i.blockLoad? s.cur = some b → listHas b.list .r15 = true → Runs i s →
    let v := s.word (b.addrOf .r15)
    let thumb := if s.turn = .fast then v.getLsbD 0 else psrT s.cur.cpsr
    ∃ t, exec i s = .next t ∧ Frame s t ∧ MemSame s t ∧ t.cur.needsFlush = true
      ∧ t.cur.regs.r15 = alignTarget thumb v
      ∧ t.cur.cpsr &&& psrMask s.turn = psrSetT s.cur.cpsr thumb &&& psrMask s.turn
      ∧ (∀ r, listHas b.list r = true → r ≠ .r15 → t.cur.regs.get (s.physOf r) = s.word (b.addrOf r))
      ∧ WbDone s t b.wb
      ∧ RegsSame (fun p => (∃ r, listHas b.list r = true ∧ p = s.physOf r) ∨ s.isWb b.wb p) s t

/-- LDM with S and r15 in the list returns from an exception: the other registers and the write-back into the bank of the
mode before, then the spsr into cpsr and the loaded word, aligned to the restored state, into r15.  If the spsr names no
legal mode the core stops, with cpsr and r15 unchanged (43_arm_loadstore.md R239; 60_exceptions.md R375).  That Q comes
from the spsr with the other bits is log entry 23. -/
def Obligations.LdmReturns : Prop :=
  ∀ (s : State) (c : Cond) (bm : BlockMode) (w : Bool) (rn : Reg) (list : BitVec 16),
    let i : Instr := .ldm c bm true w rn list
    let b := blockVia s.cur bm false w rn list
    let psr := s.cur.getSpsr
    let loaded (t : State) : Prop :=
      MemSame s t ∧ WbDone s t b.wb
      ∧ (∀ r, listHas list r = true → r ≠ .r15 → t.cur.regs.get (s.physOf r) = s.word (b.addrOf r))
      ∧ RegsSame (fun p => (∃ r, listHas list r = true ∧ p = s.physOf r) ∨ s.isWb b.wb p) s t
    listHas list .r15 = true → Runs i s →
    (psrLegal psr = true →
      ∃ t, exec i s = .next t ∧ Frame s t ∧ loaded t ∧ t.cur.needsFlush = true ∧ t.cur.cpsr = psr &&& psrMask s.turn
        ∧ t.cur.regs.r15 = alignTarget (psrT psr) (s.word (b.addrOf .r15)))
    ∧ (psrLegal psr = false →
      ∃ t, exec i s = .next t ∧ loaded t ∧ t.cur.running = false ∧ t.cur.cpsr = s.cur.cpsr
        ∧ t.cur.regs.r15 = s.cur.regs.r15 ∧ t.cur.diag = some ⟨.illegalMode, psr, s.cur.instrAddr⟩)

/-- STM (with S from the user bank), PUSH and STMIA of Thumb: each register's value (A + STR_PC_OFFSET for r15) in its
word, the lowest number at the lowest address, every other byte unchanged, and the base its write-back
(43_arm_loadstore.md R234, R237, R238, R240; 45_thumb.md R319, R321). -/
def Obligations.BlockStores : Prop :=
  ∀ (i : Instr) (s : State) (b : BlockMove), i.blockStore? s.cur = some b → Runs i s → Memory.wf s.mem = true →
    ∃ t, exec i s = .next t ∧ Frame s t ∧ t.cur.needsFlush = s.cur.needsFlush ∧ t.cur.cpsr = s.cur.cpsr
      ∧ (∀ r, listHas b.list r = true → t.word (b.addrOf r) =
          if r = .r15 then s.cur.instrAddr + s.cfg.strPcOffset else s.cur.regs.get (b.bank s r))
      ∧ (∀ a, (∀ r, listHas b.list r = true → ¬InAccess .word (b.addrOf r) a) → memByte t.mem a = memByte s.mem a)
      ∧ WbDone s t b.wb ∧ RegsSame (fun p => s.isWb b.wb p) s t

/-- The branches that are taken: r15 at the target aligned to the state there, r14 the link if there is one, T the state
there, a flush, and nothing else (44_arm_branch_system.md R245 to R249; 45_thumb.md R293, R295 to R297, R323, R325,
R344, R345). -/
def Obligations.BranchesTaken : Prop :=
  ∀ (i : Instr) (s : State) (b : Branch), i.branch? s.cur = some b → Runs i s →
    ∃ t, exec i s = .next t ∧ Frame s t ∧ NoAccess s t ∧ t.cur.needsFlush = true
      ∧ t.cur.regs.r15 = alignTarget b.thumb b.target
      ∧ (∀ v, b.link = some v → t.cur.regs.get (s.physOf .r14) = v)
      ∧ t.cur.cpsr &&& psrMask s.turn = psrSetT s.cur.cpsr b.thumb &&& psrMask s.turn
      ∧ RegsSame (fun p => p = .r15 ∨ (b.link ≠ none ∧ p = s.physOf .r14)) s t

/-- PLD, and the conditional branch of Thumb whose condition fails, complete and change nothing (43_arm_loadstore.md
R243; 45_thumb.md R323). -/
def Obligations.NoEffect : Prop :=
  ∀ (i : Instr) (s : State), i.idleOn s.cur → Runs i s →
    ∃ t, exec i s = .next t ∧ Frame s t ∧ NoAccess s t ∧ t.cur.needsFlush = s.cur.needsFlush
      ∧ RegsSame (fun _ => False) s t ∧ t.cur.cpsr = s.cur.cpsr

/-- SWI in TRAP mode enters SVC mode at vector 0x08, in ARM state with interrupts masked, with the old cpsr in spsr_svc
and A + W in r14_svc (60_exceptions.md R363, R365; 44_arm_branch_system.md R250; 45_thumb.md R324). -/
def Obligations.SwiTraps : Prop :=
  ∀ (i : Instr) (s : State) (n : BitVec 8), i.swi? = some n → s.cfg.swiMode = .trap → Runs i s →
    ∃ t, exec i s = .next t ∧ StatusFrame s t ∧ t.cur.needsFlush = true
      ∧ t.cur.spsrSvc = s.cur.cpsr &&& psrMask s.turn
      ∧ t.cur.spsrFiq = s.cur.spsrFiq ∧ t.cur.spsrAbt = s.cur.spsrAbt ∧ t.cur.spsrIrq = s.cur.spsrIrq
      ∧ t.cur.spsrUnd = s.cur.spsrUnd
      ∧ psrM t.cur.cpsr = 0x13#5 ∧ psrI t.cur.cpsr = true ∧ psrT t.cur.cpsr = false
      ∧ t.cur.cpsr &&& ~~~0xBF#32 = s.cur.cpsr &&& ~~~0xBF#32 &&& psrMask s.turn
      ∧ t.cur.regs.r14Svc = s.cur.instrAddr + (if psrT s.cur.cpsr then 2#32 else 4#32)
      ∧ t.cur.regs.r15 = (s.cfg.vbase.get s.turn + 0x08#32) &&& ~~~3#32
      ∧ RegsSame (fun p => p = .r15 ∨ p = .r14Svc) s t

/-- SWI in HLE mode with an idle service: WaitByLoop, IntrWait, VBlankIntrWait and Halt set the idle state, its latches
and the mask ports, and nothing else (60_exceptions.md R366 to R370). -/
def Obligations.SwiIdles : Prop :=
  ∀ (i : Instr) (s : State) (n : BitVec 8), i.swi? = some n → s.cfg.swiMode = .hle → Runs i s →
    3 ≤ n.toNat → n.toNat ≤ 6 →
    let p := s.curPorts
    let waiting (t : State) (sel mask : Word) : Prop :=
      t.cur.idleState = .waitInterrupt ∧ t.cur.waitAnySel = sel ∧ t.cur.waitCount = s.cur.waitCount
        ∧ t.curPorts = { p with
            ieSaved := p.ie, ifSaved := p.iflag, ie := mask, iflag := if s.cfg.waitClearsPending then 0#32 else p.iflag }
    ∃ t, exec i s = .next t ∧ IdleFrame s t
      ∧ (n = 3#8 → t.cur.idleState = .waitLoop ∧ t.cur.waitCount = s.cur.reg .r0 ∧ t.cur.waitAnySel = s.cur.waitAnySel
          ∧ t.curPorts = p)
      ∧ (n = 4#8 → waiting t (s.cur.reg .r0) (s.cur.reg .r1))
      ∧ (n = 5#8 → waiting t 1#32 1#32)
      ∧ (n = 6#8 → t.cur.idleState = .halted ∧ t.cur.waitCount = s.cur.waitCount
          ∧ t.cur.waitAnySel = s.cur.waitAnySel ∧ t.curPorts = p)

/-- SWI in HLE mode with any other number: without a BiosService the core stops with NO_SERVICE; with one, whatever the
service does, the instruction completes with cpsr, r15 and the flush request as they were (60_exceptions.md R357,
R366).  The service's actions are a free value (notes/assumptions/9.md). -/
def Obligations.SwiServices : Prop :=
  ∀ (i : Instr) (s : State) (n : BitVec 8), i.swi? = some n → s.cfg.swiMode = .hle → Runs i s →
    (n.toNat < 3 ∨ 6 < n.toNat) →
    (s.cfg.biosService = false →
      ∃ t, exec i s = .next t ∧ Stopped s t ⟨.noService, n.setWidth 32, s.cur.instrAddr⟩)
    ∧ (s.cfg.biosService = true →
      ∃ t, exec i s = .next t ∧ t.biosCalls = s.biosCalls + 1 ∧ t.cur.cpsr = s.cur.cpsr
        ∧ t.cur.regs.r15 = s.cur.regs.r15 ∧ t.cur.needsFlush = s.cur.needsFlush ∧ t.cur.running = s.cur.running
        ∧ t.cur.idleState = s.cur.idleState)

/-- MCR and MRC: in user mode the core stops; otherwise the transfer reaches the Cp15, if one is given, and changes only
what the rules say: the wait-for-interrupt operations halt the core, MRC writes Rd or, for r15, the four flags, with 0
read when no Cp15 is given (44_arm_branch_system.md R253 to R256).  The answers of a given Cp15 are a free value
(notes/assumptions/8.md). -/
def Obligations.Cp15Transfers : Prop :=
  ∀ (s : State) (c : Cond) (op1 : BitVec 3) (crn : BitVec 4) (rd : Reg) (op2 : BitVec 3) (crm : BitVec 4),
    let r : Cp15Reg := ⟨op1, crn, crm, op2⟩
    let wfi := op1 = 0#3 ∧ crn = 7#4 ∧ ((crm = 0#4 ∧ op2 = 4#3) ∨ (crm = 8#4 ∧ op2 = 2#3))
    let v := if s.cfg.cp15 then Config.cp15Answer s.cp15Log r else 0#32
    let user := psrMode? s.cur.cpsr = some .usr
    let log (e : Cp15Event) := if s.cfg.cp15 then s.cp15Log ++ [e] else s.cp15Log
    let stop (i : Instr) :=
      ∃ t, exec i s = .next t ∧ Stopped s t ⟨.unrecognized, s.cur.execSlot.word, s.cur.instrAddr⟩
    let mcr : Instr := .mcr c op1 crn rd op2 crm
    let mrc : Instr := .mrc c op1 crn rd op2 crm
    (Runs mcr s → user → stop mcr) ∧ (Runs mrc s → user → stop mrc)
    ∧ (Runs mcr s → ¬user →
      ∃ t, exec mcr s = .next t ∧ IdleFrame { s with cp15Log := t.cp15Log } t
        ∧ t.cp15Log = log (.write r (s.cur.reg rd)) ∧ t.curPorts = s.curPorts
        ∧ t.cur.waitCount = s.cur.waitCount ∧ t.cur.waitAnySel = s.cur.waitAnySel
        ∧ (wfi → t.cur.idleState = .halted) ∧ (¬wfi → t.cur.idleState = s.cur.idleState))
    ∧ (Runs mrc s → ¬user →
      ∃ t, exec mrc s = .next t ∧ Frame { s with cp15Log := t.cp15Log } t ∧ NoAccess s t
        ∧ t.cp15Log = log (.read r) ∧ t.cur.needsFlush = s.cur.needsFlush
        ∧ (rd ≠ .r15 → t.cur.regs.get (s.physOf rd) = v ∧ RegsSame (fun p => p = s.physOf rd) s t
            ∧ t.cur.cpsr = s.cur.cpsr)
        ∧ (rd = .r15 → RegsSame (fun _ => False) s t
            ∧ psrN t.cur.cpsr = v.getLsbD 31 ∧ psrZ t.cur.cpsr = v.getLsbD 30 ∧ psrC t.cur.cpsr = v.getLsbD 29
            ∧ psrV t.cur.cpsr = v.getLsbD 28
            ∧ t.cur.cpsr &&& ~~~0xF0000000#32 = s.cur.cpsr &&& ~~~0xF0000000#32 &&& psrMask s.turn))
end

