-- ==== Sys2Proof/Laws/Encoding.lean ====
section
/-! SUPPORT. The fields of an instruction word: reading what the encoder wrote, and the other way. -/

namespace Sys2Proof

/-! ## Field values -/

/-- A register read from its number. -/
@[simp] theorem Reg.ofBits_toBits (r : Reg) : Reg.ofBits r.toBits = r := by
  cases r <;> rfl

/-- The number of a register read from a field. -/
@[simp] theorem Reg.toBits_ofBits (b : BitVec 4) : (Reg.ofBits b).toBits = b := by
  revert b
  decide

/-- A low register read from its number. -/
@[simp] theorem LoReg.ofBits_toBits (r : LoReg) : LoReg.ofBits r.toBits = r := by
  cases r <;> rfl

/-- The number of a low register read from a field. -/
@[simp] theorem LoReg.toBits_ofBits (b : BitVec 3) : (LoReg.ofBits b).toBits = b := by
  revert b
  decide

/-- A condition read from its encoding. -/
@[simp] theorem Cond.ofBits_toBits (c : Cond) : Cond.ofBits c.toBits = c := by
  cases c <;> rfl

/-- The encoding of a condition read from a field. -/
@[simp] theorem Cond.toBits_ofBits (b : BitVec 4) : (Cond.ofBits b).toBits = b := by
  revert b
  decide

/-- A shift type read from its encoding. -/
@[simp] theorem ShiftType.ofBits_toBits (t : ShiftType) : ShiftType.ofBits t.toBits = t := by
  cases t <;> rfl

/-- The encoding of a shift type read from a field. -/
@[simp] theorem ShiftType.toBits_ofBits (b : BitVec 2) : (ShiftType.ofBits b).toBits = b := by
  revert b
  decide

/-- A block mode read from its two bits. -/
@[simp] theorem BlockMode.ofBits_toBits (m : BlockMode) : BlockMode.ofBits m.toBits.1 m.toBits.2 = m := by
  cases m <;> rfl

/-! ## Words -/

/-- The fields of a word put together from fields. -/
@[simp] theorem ArmFields.ofWord_toWord (f : ArmFields) : ArmFields.ofWord f.toWord = f := by
  obtain ⟨c, hi, n, d, s, lo, m⟩ := f
  simp only [ArmFields.ofWord, ArmFields.toWord, ArmFields.mk.injEq]
  refine ⟨?_, ?_, ?_, ?_, ?_, ?_, ?_⟩ <;>
    (apply BitVec.eq_of_getLsbD_eq
     intro i hi
     simp only [BitVec.getLsbD_extractLsb', BitVec.getLsbD_append]
     simp only [hi, decide_true, Bool.true_and])
  all_goals (repeat' split) <;> first | omega | (congr 1; omega)

/-- The fields of a halfword put together from fields. -/
@[simp] theorem ThumbFields.ofHalf_toHalf (f : ThumbFields) : ThumbFields.ofHalf f.toHalf = f := by
  obtain ⟨t, u, v, s, d⟩ := f
  simp only [ThumbFields.ofHalf, ThumbFields.toHalf, ThumbFields.mk.injEq]
  refine ⟨?_, ?_, ?_, ?_, ?_⟩ <;>
    (apply BitVec.eq_of_getLsbD_eq
     intro i hi
     simp only [BitVec.getLsbD_extractLsb', BitVec.getLsbD_append]
     simp only [hi, decide_true, Bool.true_and])
  all_goals (repeat' split) <;> first | omega | (congr 1; omega)

end Sys2Proof
end

