-- ==== Sys2Proof/Laws/Memory.lean ====
section
/-! SUPPORT. Memory: reading after writing, and that every memory operation keeps the canonical form. -/

namespace Sys2Proof.Machine

/-- A canonical list reads as 0 below its lower bound. -/
theorem memByte_below {lo : Nat} {m : List Host.Cell} {a : Nat} (h : Memory.wfFrom lo m = true) (ha : a < lo) :
    memByte m a = 0#8 := by
  induction m generalizing lo with
  | nil => rfl
  | cons x rest ih =>
    obtain ⟨key, v⟩ := x
    simp only [Memory.wfFrom, Bool.and_eq_true, decide_eq_true_eq] at h
    simp only [memByte]
    rw [if_neg (by omega)]
    exact ih h.2 (by omega)

/-- A lower bound may be lowered. -/
theorem Memory.wfFrom_mono {lo lo' : Nat} {m : List Host.Cell} (h : Memory.wfFrom lo m = true) (hl : lo' ≤ lo) :
    Memory.wfFrom lo' m = true := by
  cases m with
  | nil => rfl
  | cons x rest =>
    obtain ⟨key, v⟩ := x
    simp only [Memory.wfFrom, Bool.and_eq_true, decide_eq_true_eq] at h ⊢
    exact ⟨⟨⟨by omega, h.1.1.2⟩, h.1.2⟩, h.2⟩

/-- Writing a byte keeps the canonical form, from a bound below the address on. -/
theorem Memory.wfFrom_memPut {lo : Nat} {m : List Host.Cell} {a : Nat} {b : Byte} (h : Memory.wfFrom lo m = true)
    (hlo : lo ≤ a) (ha : a < 2 ^ 32) : Memory.wfFrom lo (memPut m a b) = true := by
  induction m generalizing lo with
  | nil =>
    simp only [memPut]
    split
    · rfl
    · simp_all [Memory.wfFrom]
  | cons x rest ih =>
    obtain ⟨key, v⟩ := x
    have h' := h
    simp only [Memory.wfFrom, Bool.and_eq_true, decide_eq_true_eq] at h'
    simp only [memPut]
    split
    · split
      · exact h
      · next hlt hb =>
        simp only [Memory.wfFrom, Bool.and_eq_true, decide_eq_true_eq]
        exact ⟨⟨⟨hlo, ha⟩, hb⟩, ⟨⟨⟨by omega, h'.1.1.2⟩, h'.1.2⟩, h'.2⟩⟩
    · split
      · split
        · exact Memory.wfFrom_mono h'.2 (by omega)
        · next hlt heq hb =>
          simp only [Memory.wfFrom, Bool.and_eq_true, decide_eq_true_eq]
          exact ⟨⟨⟨hlo, ha⟩, hb⟩, heq ▸ h'.2⟩
      · simp only [Memory.wfFrom, Bool.and_eq_true, decide_eq_true_eq]
        exact ⟨h'.1, ih h'.2 (by omega)⟩

/-- Writing a byte keeps the canonical form. -/
theorem Memory.wf_memPut {m : List Host.Cell} {a : Word} {b : Byte} (h : Memory.wf m = true) :
    Memory.wf (memPut m a.toNat b) = true :=
  Memory.wfFrom_memPut h (Nat.zero_le _) a.isLt

/-- What a byte reads as after a byte is written. -/
theorem memByte_memPut_from {lo : Nat} {m : List Host.Cell} (h : Memory.wfFrom lo m = true) (a x : Nat) (b : Byte) :
    memByte (memPut m a b) x = if x = a then b else memByte m x := by
  induction m generalizing lo with
  | nil =>
    simp only [memPut]
    split
    · next hb =>
      simp only [memByte, hb]
      split <;> rfl
    · simp only [memByte, eq_comm]
  | cons y rest ih =>
    obtain ⟨key, v⟩ := y
    have h' := h
    simp only [Memory.wfFrom, Bool.and_eq_true, decide_eq_true_eq] at h'
    simp only [memPut]
    split
    · next hlt =>
      have hz : memByte ((key, v) :: rest) a = 0#8 := by
        simp only [memByte]
        rw [if_neg (by omega)]
        exact memByte_below h'.2 (by omega)
      split
      · next hb =>
        split
        · next hx => rw [hx, hz, hb]
        · rfl
      · show (if a = x then b else memByte ((key, v) :: rest) x) = _
        simp only [eq_comm]
    · split
      · next heq =>
        have hz : memByte rest a = 0#8 := memByte_below h'.2 (by omega)
        split
        · next hb =>
          split
          · next hx => rw [hx, hz, hb]
          · next hx =>
            simp only [memByte]
            rw [if_neg (by omega)]
        · simp only [memByte]
          by_cases hx : x = a
          · simp [hx]
          · rw [if_neg (by omega), if_neg hx, if_neg (by omega)]
      · next hlt hne =>
        simp only [memByte, ih h'.2]
        by_cases hk : key = x
        · rw [if_pos hk, if_neg (by omega), if_pos hk]
        · rw [if_neg hk, if_neg hk]

/-- What a byte reads as after a byte is written. -/
theorem memByte_memPut {m : List Host.Cell} (h : Memory.wf m = true) (a x : Nat) (b : Byte) :
    memByte (memPut m a b) x = if x = a then b else memByte m x :=
  memByte_memPut_from h a x b

/-- A store keeps the canonical form. -/
theorem Memory.wf_memStore {m : List Host.Cell} (h : Memory.wf m = true) (a : Word) (w : Width) (v : Word) :
    Memory.wf (memStore m a w v) = true := by
  cases w
  · exact Memory.wf_memPut h
  · exact Memory.wf_memPut (Memory.wf_memPut h)
  · exact Memory.wf_memPut (Memory.wf_memPut (Memory.wf_memPut (Memory.wf_memPut h)))

/-- Writing a list of bytes keeps the canonical form. -/
theorem Memory.wf_foldl_memPut {m : List Host.Cell} (h : Memory.wf m = true) (l : List (Word × Byte)) :
    Memory.wf (l.foldl (fun m x => memPut m x.1.toNat x.2) m) = true := by
  induction l generalizing m with
  | nil => exact h
  | cons x rest ih => exact ih (Memory.wf_memPut h)

/-- The memory after reset is in canonical form. -/
theorem Memory.wf_resetWith (cfg : Config) : Memory.wf (State.resetWith cfg).mem = true := rfl

/-- The memory of the reset state is in canonical form. -/
theorem Memory.wf_reset : Memory.wf State.reset.mem = true := rfl

/-- A write through the machine keeps the canonical form. -/
theorem Memory.wf_write {s : State} (h : Memory.wf s.mem = true) (a : Word) (w : Width) (v : Word) :
    Memory.wf (s.write a w v).mem = true :=
  Memory.wf_memStore h a w v

/-- A peripheral pulse keeps the canonical form. -/
theorem Memory.wf_applyPulse {s : State} (h : Memory.wf s.mem = true) (p : Pulse) :
    Memory.wf (s.applyPulse p).mem = true :=
  Memory.wf_foldl_memPut h p.writes

/-- The byte a byte store leaves, and every other byte. -/
theorem memByte_memStore_byte {m : List Host.Cell} (h : Memory.wf m = true) (a v : Word) (x : Nat) :
    memByte (memStore m a .byte v) x = if x = a.toNat then v.extractLsb' 0 8 else memByte m x :=
  memByte_memPut h _ _ _

/-- The bytes a halfword store leaves, and every other byte. -/
theorem memByte_memStore_half {m : List Host.Cell} (h : Memory.wf m = true) (a v : Word) (x : Nat) :
    memByte (memStore m a .half v) x =
      if x = (a + 1#32).toNat then v.extractLsb' 8 8
      else if x = a.toNat then v.extractLsb' 0 8 else memByte m x := by
  simp only [memStore]
  rw [memByte_memPut (Memory.wf_memPut h), memByte_memPut h]

/-- The bytes a word store leaves, and every other byte. -/
theorem memByte_memStore_word {m : List Host.Cell} (h : Memory.wf m = true) (a v : Word) (x : Nat) :
    memByte (memStore m a .word v) x =
      if x = (a + 3#32).toNat then v.extractLsb' 24 8
      else if x = (a + 2#32).toNat then v.extractLsb' 16 8
      else if x = (a + 1#32).toNat then v.extractLsb' 8 8
      else if x = a.toNat then v.extractLsb' 0 8 else memByte m x := by
  simp only [memStore]
  rw [memByte_memPut (Memory.wf_memPut (Memory.wf_memPut (Memory.wf_memPut h))),
    memByte_memPut (Memory.wf_memPut (Memory.wf_memPut h)), memByte_memPut (Memory.wf_memPut h), memByte_memPut h]

end Sys2Proof.Machine
end

