-- ==== Sys2Proof/Laws/Psr.lean ====
section
/-! SUPPORT. The status registers bit by bit: what each field update leaves in each bit. -/

namespace Sys2Proof.Machine

/-- Replacing a bit, bit by bit. -/
theorem getLsbD_putBit (w : Word) (i : Nat) (b : Bool) (j : Nat) :
    (putBit w i b).getLsbD j = if j = i ∧ j < 32 then b else w.getLsbD j := by
  have hone : (1#32 <<< i).getLsbD j = decide (j = i ∧ j < 32) := by
    rw [BitVec.getLsbD_shiftLeft, BitVec.getLsbD_one]
    by_cases h1 : j < 32 <;> by_cases h2 : j < i <;> by_cases h3 : j = i <;> simp [h1, h2, h3]
    omega
  have hset : (if b then 1#32 <<< i else 0#32).getLsbD j = (b && decide (j = i ∧ j < 32)) := by
    cases b
    · simp
    · rw [if_pos rfl, hone, Bool.true_and]
  unfold putBit
  rw [BitVec.getLsbD_or, BitVec.getLsbD_and, BitVec.getLsbD_not, hone, hset]
  by_cases hj : j < 32
  · by_cases hji : j = i
    · subst hji
      simp [hj]
    · simp [hj, hji]
  · have h1 : w.getLsbD j = false := BitVec.getLsbD_of_ge _ _ (by omega)
    simp [hj, h1]

/-- Replacing a bit, bit by bit. -/
@[simp] theorem getElem_putBit (w : Word) (i : Nat) (b : Bool) (j : Nat) (h : j < 32) :
    (putBit w i b)[j] = if j = i then b else w[j] := by
  have := getLsbD_putBit w i b j
  simpa [h] using this

/-- Replacing a masked field, bit by bit. -/
theorem getLsbD_putMasked (w mask v : Word) (j : Nat) :
    (putMasked w mask v).getLsbD j = if mask.getLsbD j then v.getLsbD j else w.getLsbD j := by
  unfold putMasked
  rw [BitVec.getLsbD_or, BitVec.getLsbD_and, BitVec.getLsbD_not, BitVec.getLsbD_and]
  by_cases hj : j < 32
  · cases hm : mask.getLsbD j <;> simp [hj]
  · have h1 : w.getLsbD j = false := BitVec.getLsbD_of_ge _ _ (by omega)
    have h2 : v.getLsbD j = false := BitVec.getLsbD_of_ge _ _ (by omega)
    simp [h1, h2]

/-- Replacing a masked field, bit by bit. -/
@[simp] theorem getElem_putMasked (w mask v : Word) (j : Nat) (h : j < 32) :
    (putMasked w mask v)[j] = if mask[j] then v[j] else w[j] := by
  have := getLsbD_putMasked w mask v j
  simpa [h] using this

/-- T after it is set. -/
@[simp] theorem psrT_psrSetT (w : Word) (b : Bool) : psrT (psrSetT w b) = b := by
  simp [psrT, psrSetT]

/-- T after the mask of a core. -/
@[simp] theorem psrT_mask (w : Word) (k : CoreId) : psrT (w &&& psrMask k) = psrT w := by
  cases k <;> simp [psrT, psrMask]

/-- I after it is set. -/
@[simp] theorem psrI_psrSetI (w : Word) (b : Bool) : psrI (psrSetI w b) = b := by
  simp [psrI, psrSetI]

/-- The mode field after the mask of a core. -/
@[simp] theorem psrM_mask (w : Word) (k : CoreId) : psrM (w &&& psrMask k) = psrM w := by
  apply BitVec.eq_of_getLsbD_eq
  intro j hj
  have : j = 0 ∨ j = 1 ∨ j = 2 ∨ j = 3 ∨ j = 4 := by omega
  obtain rfl | rfl | rfl | rfl | rfl := this <;> cases k <;> simp [psrM, psrMask]

/-- The mode field of a status word whose T was set. -/
@[simp] theorem psrM_psrSetT (w : Word) (b : Bool) : psrM (psrSetT w b) = psrM w := by
  apply BitVec.eq_of_getLsbD_eq
  intro j hj
  simp only [psrM, psrSetT, BitVec.getLsbD_extractLsb', getLsbD_putBit]
  rw [if_neg (by omega)]

/-- The mode of a status word after the mask of a core. -/
@[simp] theorem psrMode?_mask (w : Word) (k : CoreId) : psrMode? (w &&& psrMask k) = psrMode? w := by
  simp [psrMode?]

/-- The mode of a status word whose T was set. -/
@[simp] theorem psrMode?_psrSetT (w : Word) (b : Bool) : psrMode? (psrSetT w b) = psrMode? w := by
  simp [psrMode?]

/-- The mode field after it is set. -/
@[simp] theorem psrM_psrSetMode (w : Word) (m : Mode) : psrM (psrSetMode w m) = m.bits := by
  apply BitVec.eq_of_getLsbD_eq
  intro j hj
  have : j = 0 ∨ j = 1 ∨ j = 2 ∨ j = 3 ∨ j = 4 := by omega
  obtain rfl | rfl | rfl | rfl | rfl := this <;> cases m <;> simp [psrM, psrSetMode, Mode.bits]

/-- A mode's field names the mode. -/
@[simp] theorem Mode.ofBits?_bits (m : Mode) : Mode.ofBits? m.bits = some m := by
  cases m <;> rfl

/-- The mask of a core, twice. -/
@[simp] theorem psrMask_mask (w : Word) (k : CoreId) : w &&& psrMask k &&& psrMask k = w &&& psrMask k := by
  rw [BitVec.and_assoc, BitVec.and_self]

/-- A masked word has no reserved bit. -/
@[simp] theorem psrMask_clean (w : Word) (k : CoreId) : w &&& psrMask k &&& ~~~psrMask k = 0#32 := by
  cases k <;> (rw [BitVec.and_assoc]; simp [psrMask])

end Sys2Proof.Machine
end

