-- ==== Sys2Proof/Laws/Registers.lean ====
section
/-! SUPPORT. The registers: reading after writing, of the register file and of the scratch lists, and the map from a
register number and a mode to a physical register. -/

namespace Sys2Proof.Machine

/-- A written register reads as the value written. -/
@[simp] theorem RegFile.get_set_self (f : RegFile) (p : PhysReg) (v : Word) : (f.set p v).get p = v := by
  cases p <;> rfl

/-- A write leaves every other register alone. -/
theorem RegFile.get_set_ne (f : RegFile) {p q : PhysReg} (v : Word) (h : q ≠ p) : (f.set p v).get q = f.get q := by
  cases p <;> cases q <;> first | rfl | exact absurd rfl h

/-- Reading after writing, in one equation. -/
theorem RegFile.get_set (f : RegFile) (p q : PhysReg) (v : Word) :
    (f.set p v).get q = if q = p then v else f.get q := by
  by_cases h : q = p
  · subst h
    simp
  · rw [if_neg h, RegFile.get_set_ne f v h]

/-- Two register files that read the same are the same. -/
theorem RegFile.ext_get {f g : RegFile} (h : ∀ p, f.get p = g.get p) : f = g := by
  cases f
  cases g
  simp only [RegFile.mk.injEq]
  exact ⟨h .r0, h .r1, h .r2, h .r3, h .r4, h .r5, h .r6, h .r7, h .r8, h .r9, h .r10, h .r11, h .r12, h .r8Fiq, h .r9Fiq, h .r10Fiq, h .r11Fiq, h .r12Fiq, h .r13Usr, h .r14Usr, h .r13Fiq, h .r14Fiq, h .r13Svc, h .r14Svc, h .r13Abt, h .r14Abt, h .r13Irq, h .r14Irq, h .r13Und, h .r14Und, h .r15⟩

/-- The program counter is the register `r15`. -/
@[simp] theorem RegFile.get_r15 (f : RegFile) : f.get .r15 = f.r15 := rfl

/-- A write of another register leaves the program counter alone. -/
theorem RegFile.set_r15_ne (f : RegFile) {p : PhysReg} (v : Word) (h : p ≠ .r15) : (f.set p v).r15 = f.r15 :=
  RegFile.get_set_ne f v (Ne.symm h)

/-- An entry of a scratch list that was set. -/
@[simp] theorem RegMap.get_set_self {α : Type} (f : RegMap α) (i : Reg) (v : α) : (f.set i v).get i = v := by
  cases i <;> rfl

/-- Setting an entry leaves the others alone. -/
theorem RegMap.get_set_ne {α : Type} (f : RegMap α) {i j : Reg} (v : α) (h : j ≠ i) : (f.set i v).get j = f.get j := by
  cases i <;> cases j <;> first | rfl | exact absurd rfl h

/-- A constant list. -/
@[simp] theorem RegMap.get_const {α : Type} (v : α) (i : Reg) : (RegMap.const v).get i = v := by
  cases i <;> rfl

/-- A list given by a function. -/
@[simp] theorem RegMap.get_ofFn {α : Type} (g : Reg → α) (i : Reg) : (RegMap.ofFn g).get i = g i := by
  cases i <;> rfl

/-- The program counter is one register in every mode. -/
@[simp] theorem phys_r15 (m : Mode) : phys .r15 m = .r15 := rfl

/-- Only the number 15 names the program counter. -/
theorem phys_eq_r15 {i : Reg} {m : Mode} : phys i m = .r15 ↔ i = .r15 := by
  cases i <;> cases m <;> simp [phys]

/-- In one mode different numbers name different registers. -/
theorem phys_inj {i j : Reg} {m : Mode} : phys i m = phys j m ↔ i = j := by
  constructor
  · intro h
    cases m <;> cases i <;> cases j <;> first | rfl | (exfalso; revert h; decide)
  · intro h
    rw [h]

/-- SYS names the registers of USR. -/
@[simp] theorem phys_sys (i : Reg) : phys i .sys = phys i .usr := by
  cases i <;> rfl

/-- Register numbers are below 16. -/
theorem regNumber_lt (i : Reg) : regNumber i < 16 := by
  cases i <;> decide

/-- The encoding of a register is its number. -/
theorem toBits_toNat (i : Reg) : i.toBits.toNat = regNumber i := by
  cases i <;> rfl

/-- Every register is in the list of all registers. -/
theorem mem_allRegs (i : Reg) : i ∈ allRegs := by
  cases i <;> decide

/-- The registers of a list are those whose bit is set. -/
theorem mem_regsOf {list : BitVec 16} {i : Reg} : i ∈ regsOf list ↔ listHas list i = true := by
  simp [regsOf, listHas, mem_allRegs, toBits_toNat]

/-- The registers of a list are distinct. -/
theorem regsOf_nodup (list : BitVec 16) : (regsOf list).Nodup :=
  List.Nodup.filter _ (by decide)

/-- No low register is the program counter. -/
theorem loReg_ne_r15 (r : LoReg) : loReg r ≠ .r15 := by
  cases r <;> decide

end Sys2Proof.Machine
end

