-- ==== Sys2Proof/Laws/State.lean ====
section
/-! SUPPORT. The fields of the state after each named update: what an update does not name keeps its value, so that no
proof unfolds a record update. -/

namespace Sys2Proof.Machine

/-- The value of a core after it is replaced. -/
@[simp] theorem PerCore.get_set_self {α : Type} (p : PerCore α) (k : CoreId) (v : α) : (p.set k v).get k = v := by
  cases k <;> rfl

/-- The value of the other core. -/
theorem PerCore.get_set_ne {α : Type} (p : PerCore α) {k k' : CoreId} (v : α) (h : k' ≠ k) :
    (p.set k v).get k' = p.get k' := by
  cases k <;> cases k' <;> first | rfl | exact absurd rfl h

/-- Replacing a core's value twice. -/
@[simp] theorem PerCore.set_set {α : Type} (p : PerCore α) (k : CoreId) (v v' : α) : (p.set k v).set k v' = p.set k v' := by
  cases k <;> rfl

/-- Replacing a core's value by itself. -/
@[simp] theorem PerCore.set_get {α : Type} (p : PerCore α) (k : CoreId) : p.set k (p.get k) = p := by
  cases k <;> rfl

/-! ## The machine -/

@[simp] theorem State.setCur_cfg (s : State) (c : CoreState) : (s.setCur c).cfg = s.cfg := rfl
@[simp] theorem State.setCur_ports (s : State) (c : CoreState) : (s.setCur c).ports = s.ports := rfl
@[simp] theorem State.setCur_mem (s : State) (c : CoreState) : (s.setCur c).mem = s.mem := rfl
@[simp] theorem State.setCur_traffic (s : State) (c : CoreState) : (s.setCur c).traffic = s.traffic := rfl
@[simp] theorem State.setCur_cp15Log (s : State) (c : CoreState) : (s.setCur c).cp15Log = s.cp15Log := rfl
@[simp] theorem State.setCur_biosCalls (s : State) (c : CoreState) : (s.setCur c).biosCalls = s.biosCalls := rfl
@[simp] theorem State.setCur_budget (s : State) (c : CoreState) : (s.setCur c).budget = s.budget := rfl
@[simp] theorem State.setCur_myTurn (s : State) (c : CoreState) : (s.setCur c).myTurn = s.myTurn := rfl
@[simp] theorem State.setCur_busOwner (s : State) (c : CoreState) : (s.setCur c).busOwner = s.busOwner := rfl
@[simp] theorem State.setCur_sessionHalted (s : State) (c : CoreState) : (s.setCur c).sessionHalted = s.sessionHalted := rfl
@[simp] theorem State.setCur_debugHalted (s : State) (c : CoreState) : (s.setCur c).debugHalted = s.debugHalted := rfl
@[simp] theorem State.setCur_bpResume (s : State) (c : CoreState) : (s.setCur c).bpResume = s.bpResume := rfl
@[simp] theorem State.setCur_breakpoints (s : State) (c : CoreState) : (s.setCur c).breakpoints = s.breakpoints := rfl
@[simp] theorem State.setCur_turn (s : State) (c : CoreState) : (s.setCur c).turn = s.turn := rfl
@[simp] theorem State.setCur_curPorts (s : State) (c : CoreState) : (s.setCur c).curPorts = s.curPorts := rfl

@[simp] theorem State.onCur_cfg (s : State) (f : CoreState → CoreState) : (s.onCur f).cfg = s.cfg := rfl
@[simp] theorem State.onCur_ports (s : State) (f : CoreState → CoreState) : (s.onCur f).ports = s.ports := rfl
@[simp] theorem State.onCur_mem (s : State) (f : CoreState → CoreState) : (s.onCur f).mem = s.mem := rfl
@[simp] theorem State.onCur_traffic (s : State) (f : CoreState → CoreState) : (s.onCur f).traffic = s.traffic := rfl
@[simp] theorem State.onCur_cp15Log (s : State) (f : CoreState → CoreState) : (s.onCur f).cp15Log = s.cp15Log := rfl
@[simp] theorem State.onCur_biosCalls (s : State) (f : CoreState → CoreState) :
    (s.onCur f).biosCalls = s.biosCalls := rfl
@[simp] theorem State.onCur_budget (s : State) (f : CoreState → CoreState) : (s.onCur f).budget = s.budget := rfl
@[simp] theorem State.onCur_myTurn (s : State) (f : CoreState → CoreState) : (s.onCur f).myTurn = s.myTurn := rfl
@[simp] theorem State.onCur_busOwner (s : State) (f : CoreState → CoreState) :
    (s.onCur f).busOwner = s.busOwner := rfl
@[simp] theorem State.onCur_sessionHalted (s : State) (f : CoreState → CoreState) :
    (s.onCur f).sessionHalted = s.sessionHalted := rfl
@[simp] theorem State.onCur_debugHalted (s : State) (f : CoreState → CoreState) :
    (s.onCur f).debugHalted = s.debugHalted := rfl
@[simp] theorem State.onCur_bpResume (s : State) (f : CoreState → CoreState) :
    (s.onCur f).bpResume = s.bpResume := rfl
@[simp] theorem State.onCur_breakpoints (s : State) (f : CoreState → CoreState) :
    (s.onCur f).breakpoints = s.breakpoints := rfl
@[simp] theorem State.onCur_turn (s : State) (f : CoreState → CoreState) : (s.onCur f).turn = s.turn := rfl
@[simp] theorem State.onCur_curPorts (s : State) (f : CoreState → CoreState) :
    (s.onCur f).curPorts = s.curPorts := rfl

@[simp] theorem State.setPorts_cfg (s : State) (p : Ports) : (s.setPorts p).cfg = s.cfg := rfl
@[simp] theorem State.setPorts_cores (s : State) (p : Ports) : (s.setPorts p).cores = s.cores := rfl
@[simp] theorem State.setPorts_mem (s : State) (p : Ports) : (s.setPorts p).mem = s.mem := rfl
@[simp] theorem State.setPorts_traffic (s : State) (p : Ports) : (s.setPorts p).traffic = s.traffic := rfl
@[simp] theorem State.setPorts_cp15Log (s : State) (p : Ports) : (s.setPorts p).cp15Log = s.cp15Log := rfl
@[simp] theorem State.setPorts_biosCalls (s : State) (p : Ports) : (s.setPorts p).biosCalls = s.biosCalls := rfl
@[simp] theorem State.setPorts_budget (s : State) (p : Ports) : (s.setPorts p).budget = s.budget := rfl
@[simp] theorem State.setPorts_myTurn (s : State) (p : Ports) : (s.setPorts p).myTurn = s.myTurn := rfl
@[simp] theorem State.setPorts_busOwner (s : State) (p : Ports) : (s.setPorts p).busOwner = s.busOwner := rfl
@[simp] theorem State.setPorts_sessionHalted (s : State) (p : Ports) : (s.setPorts p).sessionHalted = s.sessionHalted := rfl
@[simp] theorem State.setPorts_debugHalted (s : State) (p : Ports) : (s.setPorts p).debugHalted = s.debugHalted := rfl
@[simp] theorem State.setPorts_bpResume (s : State) (p : Ports) : (s.setPorts p).bpResume = s.bpResume := rfl
@[simp] theorem State.setPorts_breakpoints (s : State) (p : Ports) : (s.setPorts p).breakpoints = s.breakpoints := rfl
@[simp] theorem State.setPorts_turn (s : State) (p : Ports) : (s.setPorts p).turn = s.turn := rfl
@[simp] theorem State.setPorts_cur (s : State) (p : Ports) : (s.setPorts p).cur = s.cur := rfl

@[simp] theorem State.read_snd_cfg (s : State) (a : Word) (w : Width) : ((s.read a w).2).cfg = s.cfg := rfl
@[simp] theorem State.read_snd_cores (s : State) (a : Word) (w : Width) : ((s.read a w).2).cores = s.cores := rfl
@[simp] theorem State.read_snd_ports (s : State) (a : Word) (w : Width) : ((s.read a w).2).ports = s.ports := rfl
@[simp] theorem State.read_snd_mem (s : State) (a : Word) (w : Width) : ((s.read a w).2).mem = s.mem := rfl
@[simp] theorem State.read_snd_cp15Log (s : State) (a : Word) (w : Width) : ((s.read a w).2).cp15Log = s.cp15Log := rfl
@[simp] theorem State.read_snd_biosCalls (s : State) (a : Word) (w : Width) : ((s.read a w).2).biosCalls = s.biosCalls := rfl
@[simp] theorem State.read_snd_budget (s : State) (a : Word) (w : Width) : ((s.read a w).2).budget = s.budget := rfl
@[simp] theorem State.read_snd_myTurn (s : State) (a : Word) (w : Width) : ((s.read a w).2).myTurn = s.myTurn := rfl
@[simp] theorem State.read_snd_busOwner (s : State) (a : Word) (w : Width) : ((s.read a w).2).busOwner = s.busOwner := rfl
@[simp] theorem State.read_snd_sessionHalted (s : State) (a : Word) (w : Width) :
    ((s.read a w).2).sessionHalted = s.sessionHalted := rfl
@[simp] theorem State.read_snd_debugHalted (s : State) (a : Word) (w : Width) :
    ((s.read a w).2).debugHalted = s.debugHalted := rfl
@[simp] theorem State.read_snd_bpResume (s : State) (a : Word) (w : Width) : ((s.read a w).2).bpResume = s.bpResume := rfl
@[simp] theorem State.read_snd_breakpoints (s : State) (a : Word) (w : Width) :
    ((s.read a w).2).breakpoints = s.breakpoints := rfl
@[simp] theorem State.read_snd_turn (s : State) (a : Word) (w : Width) : ((s.read a w).2).turn = s.turn := rfl
@[simp] theorem State.read_snd_cur (s : State) (a : Word) (w : Width) : ((s.read a w).2).cur = s.cur := rfl
@[simp] theorem State.read_snd_curPorts (s : State) (a : Word) (w : Width) : ((s.read a w).2).curPorts = s.curPorts := rfl

@[simp] theorem State.write_cfg (s : State) (a : Word) (w : Width) (v : Word) : (s.write a w v).cfg = s.cfg := rfl
@[simp] theorem State.write_cores (s : State) (a : Word) (w : Width) (v : Word) :
    (s.write a w v).cores = s.cores := rfl
@[simp] theorem State.write_ports (s : State) (a : Word) (w : Width) (v : Word) :
    (s.write a w v).ports = s.ports := rfl
@[simp] theorem State.write_cp15Log (s : State) (a : Word) (w : Width) (v : Word) :
    (s.write a w v).cp15Log = s.cp15Log := rfl
@[simp] theorem State.write_biosCalls (s : State) (a : Word) (w : Width) (v : Word) :
    (s.write a w v).biosCalls = s.biosCalls := rfl
@[simp] theorem State.write_budget (s : State) (a : Word) (w : Width) (v : Word) :
    (s.write a w v).budget = s.budget := rfl
@[simp] theorem State.write_myTurn (s : State) (a : Word) (w : Width) (v : Word) :
    (s.write a w v).myTurn = s.myTurn := rfl
@[simp] theorem State.write_busOwner (s : State) (a : Word) (w : Width) (v : Word) :
    (s.write a w v).busOwner = s.busOwner := rfl
@[simp] theorem State.write_sessionHalted (s : State) (a : Word) (w : Width) (v : Word) :
    (s.write a w v).sessionHalted = s.sessionHalted := rfl
@[simp] theorem State.write_debugHalted (s : State) (a : Word) (w : Width) (v : Word) :
    (s.write a w v).debugHalted = s.debugHalted := rfl
@[simp] theorem State.write_bpResume (s : State) (a : Word) (w : Width) (v : Word) :
    (s.write a w v).bpResume = s.bpResume := rfl
@[simp] theorem State.write_breakpoints (s : State) (a : Word) (w : Width) (v : Word) :
    (s.write a w v).breakpoints = s.breakpoints := rfl
@[simp] theorem State.write_turn (s : State) (a : Word) (w : Width) (v : Word) :
    (s.write a w v).turn = s.turn := rfl
@[simp] theorem State.write_cur (s : State) (a : Word) (w : Width) (v : Word) : (s.write a w v).cur = s.cur := rfl
@[simp] theorem State.write_curPorts (s : State) (a : Word) (w : Width) (v : Word) :
    (s.write a w v).curPorts = s.curPorts := rfl

@[simp] theorem State.stopWith_cfg (s : State) (d : Diag) : (s.stopWith d).cfg = s.cfg := rfl
@[simp] theorem State.stopWith_ports (s : State) (d : Diag) : (s.stopWith d).ports = s.ports := rfl
@[simp] theorem State.stopWith_mem (s : State) (d : Diag) : (s.stopWith d).mem = s.mem := rfl
@[simp] theorem State.stopWith_traffic (s : State) (d : Diag) : (s.stopWith d).traffic = s.traffic := rfl
@[simp] theorem State.stopWith_cp15Log (s : State) (d : Diag) : (s.stopWith d).cp15Log = s.cp15Log := rfl
@[simp] theorem State.stopWith_biosCalls (s : State) (d : Diag) : (s.stopWith d).biosCalls = s.biosCalls := rfl
@[simp] theorem State.stopWith_budget (s : State) (d : Diag) : (s.stopWith d).budget = s.budget := rfl
@[simp] theorem State.stopWith_myTurn (s : State) (d : Diag) : (s.stopWith d).myTurn = s.myTurn := rfl
@[simp] theorem State.stopWith_busOwner (s : State) (d : Diag) : (s.stopWith d).busOwner = s.busOwner := rfl
@[simp] theorem State.stopWith_sessionHalted (s : State) (d : Diag) : (s.stopWith d).sessionHalted = s.sessionHalted := rfl
@[simp] theorem State.stopWith_debugHalted (s : State) (d : Diag) : (s.stopWith d).debugHalted = s.debugHalted := rfl
@[simp] theorem State.stopWith_bpResume (s : State) (d : Diag) : (s.stopWith d).bpResume = s.bpResume := rfl
@[simp] theorem State.stopWith_breakpoints (s : State) (d : Diag) : (s.stopWith d).breakpoints = s.breakpoints := rfl
@[simp] theorem State.stopWith_turn (s : State) (d : Diag) : (s.stopWith d).turn = s.turn := rfl
@[simp] theorem State.stopWith_curPorts (s : State) (d : Diag) : (s.stopWith d).curPorts = s.curPorts := rfl

@[simp] theorem State.stageReg_cfg (s : State) (i : Reg) (addr v : Word) : (s.stageReg i addr v).cfg = s.cfg := rfl
@[simp] theorem State.stageReg_ports (s : State) (i : Reg) (addr v : Word) : (s.stageReg i addr v).ports = s.ports := rfl
@[simp] theorem State.stageReg_mem (s : State) (i : Reg) (addr v : Word) : (s.stageReg i addr v).mem = s.mem := rfl
@[simp] theorem State.stageReg_traffic (s : State) (i : Reg) (addr v : Word) :
    (s.stageReg i addr v).traffic = s.traffic := rfl
@[simp] theorem State.stageReg_cp15Log (s : State) (i : Reg) (addr v : Word) :
    (s.stageReg i addr v).cp15Log = s.cp15Log := rfl
@[simp] theorem State.stageReg_biosCalls (s : State) (i : Reg) (addr v : Word) :
    (s.stageReg i addr v).biosCalls = s.biosCalls := rfl
@[simp] theorem State.stageReg_budget (s : State) (i : Reg) (addr v : Word) : (s.stageReg i addr v).budget = s.budget := rfl
@[simp] theorem State.stageReg_myTurn (s : State) (i : Reg) (addr v : Word) : (s.stageReg i addr v).myTurn = s.myTurn := rfl
@[simp] theorem State.stageReg_busOwner (s : State) (i : Reg) (addr v : Word) :
    (s.stageReg i addr v).busOwner = s.busOwner := rfl
@[simp] theorem State.stageReg_sessionHalted (s : State) (i : Reg) (addr v : Word) :
    (s.stageReg i addr v).sessionHalted = s.sessionHalted := rfl
@[simp] theorem State.stageReg_debugHalted (s : State) (i : Reg) (addr v : Word) :
    (s.stageReg i addr v).debugHalted = s.debugHalted := rfl
@[simp] theorem State.stageReg_bpResume (s : State) (i : Reg) (addr v : Word) :
    (s.stageReg i addr v).bpResume = s.bpResume := rfl
@[simp] theorem State.stageReg_breakpoints (s : State) (i : Reg) (addr v : Word) :
    (s.stageReg i addr v).breakpoints = s.breakpoints := rfl
@[simp] theorem State.stageReg_turn (s : State) (i : Reg) (addr v : Word) : (s.stageReg i addr v).turn = s.turn := rfl
@[simp] theorem State.stageReg_curPorts (s : State) (i : Reg) (addr v : Word) :
    (s.stageReg i addr v).curPorts = s.curPorts := rfl

@[simp] theorem State.recordDispatch_cfg (s : State) : (s.recordDispatch).cfg = s.cfg := rfl
@[simp] theorem State.recordDispatch_ports (s : State) : (s.recordDispatch).ports = s.ports := rfl
@[simp] theorem State.recordDispatch_mem (s : State) : (s.recordDispatch).mem = s.mem := rfl
@[simp] theorem State.recordDispatch_traffic (s : State) : (s.recordDispatch).traffic = s.traffic := rfl
@[simp] theorem State.recordDispatch_cp15Log (s : State) : (s.recordDispatch).cp15Log = s.cp15Log := rfl
@[simp] theorem State.recordDispatch_biosCalls (s : State) : (s.recordDispatch).biosCalls = s.biosCalls := rfl
@[simp] theorem State.recordDispatch_budget (s : State) : (s.recordDispatch).budget = s.budget := rfl
@[simp] theorem State.recordDispatch_myTurn (s : State) : (s.recordDispatch).myTurn = s.myTurn := rfl
@[simp] theorem State.recordDispatch_busOwner (s : State) : (s.recordDispatch).busOwner = s.busOwner := rfl
@[simp] theorem State.recordDispatch_sessionHalted (s : State) : (s.recordDispatch).sessionHalted = s.sessionHalted := rfl
@[simp] theorem State.recordDispatch_debugHalted (s : State) : (s.recordDispatch).debugHalted = s.debugHalted := rfl
@[simp] theorem State.recordDispatch_bpResume (s : State) : (s.recordDispatch).bpResume = s.bpResume := rfl
@[simp] theorem State.recordDispatch_breakpoints (s : State) : (s.recordDispatch).breakpoints = s.breakpoints := rfl
@[simp] theorem State.recordDispatch_turn (s : State) : (s.recordDispatch).turn = s.turn := rfl
@[simp] theorem State.recordDispatch_curPorts (s : State) : (s.recordDispatch).curPorts = s.curPorts := rfl

@[simp] theorem State.enterHalted_cfg (s : State) : (s.enterHalted).cfg = s.cfg := rfl
@[simp] theorem State.enterHalted_ports (s : State) : (s.enterHalted).ports = s.ports := rfl
@[simp] theorem State.enterHalted_mem (s : State) : (s.enterHalted).mem = s.mem := rfl
@[simp] theorem State.enterHalted_traffic (s : State) : (s.enterHalted).traffic = s.traffic := rfl
@[simp] theorem State.enterHalted_cp15Log (s : State) : (s.enterHalted).cp15Log = s.cp15Log := rfl
@[simp] theorem State.enterHalted_biosCalls (s : State) : (s.enterHalted).biosCalls = s.biosCalls := rfl
@[simp] theorem State.enterHalted_budget (s : State) : (s.enterHalted).budget = s.budget := rfl
@[simp] theorem State.enterHalted_myTurn (s : State) : (s.enterHalted).myTurn = s.myTurn := rfl
@[simp] theorem State.enterHalted_busOwner (s : State) : (s.enterHalted).busOwner = s.busOwner := rfl
@[simp] theorem State.enterHalted_sessionHalted (s : State) : (s.enterHalted).sessionHalted = s.sessionHalted := rfl
@[simp] theorem State.enterHalted_debugHalted (s : State) : (s.enterHalted).debugHalted = s.debugHalted := rfl
@[simp] theorem State.enterHalted_bpResume (s : State) : (s.enterHalted).bpResume = s.bpResume := rfl
@[simp] theorem State.enterHalted_breakpoints (s : State) : (s.enterHalted).breakpoints = s.breakpoints := rfl
@[simp] theorem State.enterHalted_turn (s : State) : (s.enterHalted).turn = s.turn := rfl
@[simp] theorem State.enterHalted_curPorts (s : State) : (s.enterHalted).curPorts = s.curPorts := rfl

@[simp] theorem State.enterWaitLoop_cfg (s : State) (n : Word) : (s.enterWaitLoop n).cfg = s.cfg := rfl
@[simp] theorem State.enterWaitLoop_ports (s : State) (n : Word) : (s.enterWaitLoop n).ports = s.ports := rfl
@[simp] theorem State.enterWaitLoop_mem (s : State) (n : Word) : (s.enterWaitLoop n).mem = s.mem := rfl
@[simp] theorem State.enterWaitLoop_traffic (s : State) (n : Word) : (s.enterWaitLoop n).traffic = s.traffic := rfl
@[simp] theorem State.enterWaitLoop_cp15Log (s : State) (n : Word) : (s.enterWaitLoop n).cp15Log = s.cp15Log := rfl
@[simp] theorem State.enterWaitLoop_biosCalls (s : State) (n : Word) : (s.enterWaitLoop n).biosCalls = s.biosCalls := rfl
@[simp] theorem State.enterWaitLoop_budget (s : State) (n : Word) : (s.enterWaitLoop n).budget = s.budget := rfl
@[simp] theorem State.enterWaitLoop_myTurn (s : State) (n : Word) : (s.enterWaitLoop n).myTurn = s.myTurn := rfl
@[simp] theorem State.enterWaitLoop_busOwner (s : State) (n : Word) : (s.enterWaitLoop n).busOwner = s.busOwner := rfl
@[simp] theorem State.enterWaitLoop_sessionHalted (s : State) (n : Word) : (s.enterWaitLoop n).sessionHalted = s.sessionHalted := rfl
@[simp] theorem State.enterWaitLoop_debugHalted (s : State) (n : Word) : (s.enterWaitLoop n).debugHalted = s.debugHalted := rfl
@[simp] theorem State.enterWaitLoop_bpResume (s : State) (n : Word) : (s.enterWaitLoop n).bpResume = s.bpResume := rfl
@[simp] theorem State.enterWaitLoop_breakpoints (s : State) (n : Word) : (s.enterWaitLoop n).breakpoints = s.breakpoints := rfl
@[simp] theorem State.enterWaitLoop_turn (s : State) (n : Word) : (s.enterWaitLoop n).turn = s.turn := rfl
@[simp] theorem State.enterWaitLoop_curPorts (s : State) (n : Word) : (s.enterWaitLoop n).curPorts = s.curPorts := rfl

@[simp] theorem State.skip_cfg (s : State) : (s.skip).cfg = s.cfg := rfl
@[simp] theorem State.skip_ports (s : State) : (s.skip).ports = s.ports := rfl
@[simp] theorem State.skip_mem (s : State) : (s.skip).mem = s.mem := rfl
@[simp] theorem State.skip_traffic (s : State) : (s.skip).traffic = s.traffic := rfl
@[simp] theorem State.skip_cp15Log (s : State) : (s.skip).cp15Log = s.cp15Log := rfl
@[simp] theorem State.skip_biosCalls (s : State) : (s.skip).biosCalls = s.biosCalls := rfl
@[simp] theorem State.skip_budget (s : State) : (s.skip).budget = s.budget := rfl
@[simp] theorem State.skip_myTurn (s : State) : (s.skip).myTurn = s.myTurn := rfl
@[simp] theorem State.skip_busOwner (s : State) : (s.skip).busOwner = s.busOwner := rfl
@[simp] theorem State.skip_sessionHalted (s : State) : (s.skip).sessionHalted = s.sessionHalted := rfl
@[simp] theorem State.skip_debugHalted (s : State) : (s.skip).debugHalted = s.debugHalted := rfl
@[simp] theorem State.skip_bpResume (s : State) : (s.skip).bpResume = s.bpResume := rfl
@[simp] theorem State.skip_breakpoints (s : State) : (s.skip).breakpoints = s.breakpoints := rfl
@[simp] theorem State.skip_turn (s : State) : (s.skip).turn = s.turn := rfl
@[simp] theorem State.skip_curPorts (s : State) : (s.skip).curPorts = s.curPorts := rfl

/-- The core that holds the turn after it is replaced. -/
@[simp] theorem State.setCur_cur (s : State) (c : CoreState) : (s.setCur c).cur = c :=
  PerCore.get_set_self s.cores s.turn c

/-- The core that holds the turn after it is changed. -/
@[simp] theorem State.onCur_cur (s : State) (f : CoreState → CoreState) : (s.onCur f).cur = f s.cur :=
  State.setCur_cur s (f s.cur)

/-- The ports of the core that holds the turn after they are replaced. -/
@[simp] theorem State.setPorts_curPorts (s : State) (p : Ports) : (s.setPorts p).curPorts = p :=
  PerCore.get_set_self s.ports s.turn p

/-- The other core when the core that holds the turn is replaced. -/
theorem State.setCur_other (s : State) (c : CoreState) {k : CoreId} (h : k ≠ s.turn) :
    (s.setCur c).cores.get k = s.cores.get k :=
  PerCore.get_set_ne s.cores c h

/-- Replacing the core that holds the turn twice. -/
@[simp] theorem State.setCur_setCur (s : State) (c d : CoreState) : (s.setCur c).setCur d = s.setCur d := by
  show ({ s with cores := (s.cores.set s.turn c).set s.turn d } : State) = _
  rw [PerCore.set_set]
  rfl

/-- Changing the core that holds the turn twice. -/
@[simp] theorem State.onCur_onCur (s : State) (f g : CoreState → CoreState) :
    (s.onCur f).onCur g = s.onCur fun c => g (f c) := by
  show (s.setCur (f s.cur)).setCur (g (s.onCur f).cur) = _
  rw [State.onCur_cur, State.setCur_setCur]
  rfl

/-- The value a read answers. -/
@[simp] theorem State.read_fst (s : State) (a : Word) (w : Width) : (s.read a w).1 = memLoad s.mem a w := rfl

/-! ## A core -/

@[simp] theorem CoreState.writePc_cpsr (c : CoreState) (v : Word) : (c.writePc v).cpsr = c.cpsr := rfl
@[simp] theorem CoreState.writePc_spsrFiq (c : CoreState) (v : Word) : (c.writePc v).spsrFiq = c.spsrFiq := rfl
@[simp] theorem CoreState.writePc_spsrSvc (c : CoreState) (v : Word) : (c.writePc v).spsrSvc = c.spsrSvc := rfl
@[simp] theorem CoreState.writePc_spsrAbt (c : CoreState) (v : Word) : (c.writePc v).spsrAbt = c.spsrAbt := rfl
@[simp] theorem CoreState.writePc_spsrIrq (c : CoreState) (v : Word) : (c.writePc v).spsrIrq = c.spsrIrq := rfl
@[simp] theorem CoreState.writePc_spsrUnd (c : CoreState) (v : Word) : (c.writePc v).spsrUnd = c.spsrUnd := rfl
@[simp] theorem CoreState.writePc_slot0 (c : CoreState) (v : Word) : (c.writePc v).slot0 = c.slot0 := rfl
@[simp] theorem CoreState.writePc_slot1 (c : CoreState) (v : Word) : (c.writePc v).slot1 = c.slot1 := rfl
@[simp] theorem CoreState.writePc_slot2 (c : CoreState) (v : Word) : (c.writePc v).slot2 = c.slot2 := rfl
@[simp] theorem CoreState.writePc_ptr (c : CoreState) (v : Word) : (c.writePc v).ptr = c.ptr := rfl
@[simp] theorem CoreState.writePc_running (c : CoreState) (v : Word) : (c.writePc v).running = c.running := rfl
@[simp] theorem CoreState.writePc_idleState (c : CoreState) (v : Word) : (c.writePc v).idleState = c.idleState := rfl
@[simp] theorem CoreState.writePc_waitCount (c : CoreState) (v : Word) : (c.writePc v).waitCount = c.waitCount := rfl
@[simp] theorem CoreState.writePc_waitAnySel (c : CoreState) (v : Word) : (c.writePc v).waitAnySel = c.waitAnySel := rfl
@[simp] theorem CoreState.writePc_cycles (c : CoreState) (v : Word) : (c.writePc v).cycles = c.cycles := rfl
@[simp] theorem CoreState.writePc_dbgTag (c : CoreState) (v : Word) : (c.writePc v).dbgTag = c.dbgTag := rfl
@[simp] theorem CoreState.writePc_dbgOperand (c : CoreState) (v : Word) : (c.writePc v).dbgOperand = c.dbgOperand := rfl
@[simp] theorem CoreState.writePc_diag (c : CoreState) (v : Word) : (c.writePc v).diag = c.diag := rfl

@[simp] theorem CoreState.setReg_cpsr (c : CoreState) (i : Reg) (v : Word) : (c.setReg i v).cpsr = c.cpsr := by
  unfold CoreState.setReg
  split <;> rfl
@[simp] theorem CoreState.setReg_spsrFiq (c : CoreState) (i : Reg) (v : Word) :
    (c.setReg i v).spsrFiq = c.spsrFiq := by
  unfold CoreState.setReg
  split <;> rfl
@[simp] theorem CoreState.setReg_spsrSvc (c : CoreState) (i : Reg) (v : Word) :
    (c.setReg i v).spsrSvc = c.spsrSvc := by
  unfold CoreState.setReg
  split <;> rfl
@[simp] theorem CoreState.setReg_spsrAbt (c : CoreState) (i : Reg) (v : Word) :
    (c.setReg i v).spsrAbt = c.spsrAbt := by
  unfold CoreState.setReg
  split <;> rfl
@[simp] theorem CoreState.setReg_spsrIrq (c : CoreState) (i : Reg) (v : Word) :
    (c.setReg i v).spsrIrq = c.spsrIrq := by
  unfold CoreState.setReg
  split <;> rfl
@[simp] theorem CoreState.setReg_spsrUnd (c : CoreState) (i : Reg) (v : Word) :
    (c.setReg i v).spsrUnd = c.spsrUnd := by
  unfold CoreState.setReg
  split <;> rfl
@[simp] theorem CoreState.setReg_slot0 (c : CoreState) (i : Reg) (v : Word) : (c.setReg i v).slot0 = c.slot0 := by
  unfold CoreState.setReg
  split <;> rfl
@[simp] theorem CoreState.setReg_slot1 (c : CoreState) (i : Reg) (v : Word) : (c.setReg i v).slot1 = c.slot1 := by
  unfold CoreState.setReg
  split <;> rfl
@[simp] theorem CoreState.setReg_slot2 (c : CoreState) (i : Reg) (v : Word) : (c.setReg i v).slot2 = c.slot2 := by
  unfold CoreState.setReg
  split <;> rfl
@[simp] theorem CoreState.setReg_ptr (c : CoreState) (i : Reg) (v : Word) : (c.setReg i v).ptr = c.ptr := by
  unfold CoreState.setReg
  split <;> rfl
@[simp] theorem CoreState.setReg_running (c : CoreState) (i : Reg) (v : Word) :
    (c.setReg i v).running = c.running := by
  unfold CoreState.setReg
  split <;> rfl
@[simp] theorem CoreState.setReg_idleState (c : CoreState) (i : Reg) (v : Word) :
    (c.setReg i v).idleState = c.idleState := by
  unfold CoreState.setReg
  split <;> rfl
@[simp] theorem CoreState.setReg_waitCount (c : CoreState) (i : Reg) (v : Word) :
    (c.setReg i v).waitCount = c.waitCount := by
  unfold CoreState.setReg
  split <;> rfl
@[simp] theorem CoreState.setReg_waitAnySel (c : CoreState) (i : Reg) (v : Word) :
    (c.setReg i v).waitAnySel = c.waitAnySel := by
  unfold CoreState.setReg
  split <;> rfl
@[simp] theorem CoreState.setReg_cycles (c : CoreState) (i : Reg) (v : Word) :
    (c.setReg i v).cycles = c.cycles := by
  unfold CoreState.setReg
  split <;> rfl
@[simp] theorem CoreState.setReg_dbgTag (c : CoreState) (i : Reg) (v : Word) :
    (c.setReg i v).dbgTag = c.dbgTag := by
  unfold CoreState.setReg
  split <;> rfl
@[simp] theorem CoreState.setReg_dbgOperand (c : CoreState) (i : Reg) (v : Word) :
    (c.setReg i v).dbgOperand = c.dbgOperand := by
  unfold CoreState.setReg
  split <;> rfl
@[simp] theorem CoreState.setReg_diag (c : CoreState) (i : Reg) (v : Word) : (c.setReg i v).diag = c.diag := by
  unfold CoreState.setReg
  split <;> rfl

@[simp] theorem CoreState.setCpsr_regs (c : CoreState) (k : CoreId) (v : Word) :
    (c.setCpsr k v).regs = c.regs := rfl
@[simp] theorem CoreState.setCpsr_spsrFiq (c : CoreState) (k : CoreId) (v : Word) :
    (c.setCpsr k v).spsrFiq = c.spsrFiq := rfl
@[simp] theorem CoreState.setCpsr_spsrSvc (c : CoreState) (k : CoreId) (v : Word) :
    (c.setCpsr k v).spsrSvc = c.spsrSvc := rfl
@[simp] theorem CoreState.setCpsr_spsrAbt (c : CoreState) (k : CoreId) (v : Word) :
    (c.setCpsr k v).spsrAbt = c.spsrAbt := rfl
@[simp] theorem CoreState.setCpsr_spsrIrq (c : CoreState) (k : CoreId) (v : Word) :
    (c.setCpsr k v).spsrIrq = c.spsrIrq := rfl
@[simp] theorem CoreState.setCpsr_spsrUnd (c : CoreState) (k : CoreId) (v : Word) :
    (c.setCpsr k v).spsrUnd = c.spsrUnd := rfl
@[simp] theorem CoreState.setCpsr_slot0 (c : CoreState) (k : CoreId) (v : Word) :
    (c.setCpsr k v).slot0 = c.slot0 := rfl
@[simp] theorem CoreState.setCpsr_slot1 (c : CoreState) (k : CoreId) (v : Word) :
    (c.setCpsr k v).slot1 = c.slot1 := rfl
@[simp] theorem CoreState.setCpsr_slot2 (c : CoreState) (k : CoreId) (v : Word) :
    (c.setCpsr k v).slot2 = c.slot2 := rfl
@[simp] theorem CoreState.setCpsr_ptr (c : CoreState) (k : CoreId) (v : Word) : (c.setCpsr k v).ptr = c.ptr := rfl
@[simp] theorem CoreState.setCpsr_needsFlush (c : CoreState) (k : CoreId) (v : Word) :
    (c.setCpsr k v).needsFlush = c.needsFlush := rfl
@[simp] theorem CoreState.setCpsr_running (c : CoreState) (k : CoreId) (v : Word) :
    (c.setCpsr k v).running = c.running := rfl
@[simp] theorem CoreState.setCpsr_idleState (c : CoreState) (k : CoreId) (v : Word) :
    (c.setCpsr k v).idleState = c.idleState := rfl
@[simp] theorem CoreState.setCpsr_waitCount (c : CoreState) (k : CoreId) (v : Word) :
    (c.setCpsr k v).waitCount = c.waitCount := rfl
@[simp] theorem CoreState.setCpsr_waitAnySel (c : CoreState) (k : CoreId) (v : Word) :
    (c.setCpsr k v).waitAnySel = c.waitAnySel := rfl
@[simp] theorem CoreState.setCpsr_cycles (c : CoreState) (k : CoreId) (v : Word) :
    (c.setCpsr k v).cycles = c.cycles := rfl
@[simp] theorem CoreState.setCpsr_dbgTag (c : CoreState) (k : CoreId) (v : Word) :
    (c.setCpsr k v).dbgTag = c.dbgTag := rfl
@[simp] theorem CoreState.setCpsr_dbgOperand (c : CoreState) (k : CoreId) (v : Word) :
    (c.setCpsr k v).dbgOperand = c.dbgOperand := rfl
@[simp] theorem CoreState.setCpsr_diag (c : CoreState) (k : CoreId) (v : Word) :
    (c.setCpsr k v).diag = c.diag := rfl

@[simp] theorem CoreState.setSpsrOf_regs (c : CoreState) (k : CoreId) (m : Mode) (v : Word) :
    (c.setSpsrOf k m v).regs = c.regs := by
  cases m <;> rfl
@[simp] theorem CoreState.setSpsrOf_cpsr (c : CoreState) (k : CoreId) (m : Mode) (v : Word) :
    (c.setSpsrOf k m v).cpsr = c.cpsr := by
  cases m <;> rfl
@[simp] theorem CoreState.setSpsrOf_slot0 (c : CoreState) (k : CoreId) (m : Mode) (v : Word) :
    (c.setSpsrOf k m v).slot0 = c.slot0 := by
  cases m <;> rfl
@[simp] theorem CoreState.setSpsrOf_slot1 (c : CoreState) (k : CoreId) (m : Mode) (v : Word) :
    (c.setSpsrOf k m v).slot1 = c.slot1 := by
  cases m <;> rfl
@[simp] theorem CoreState.setSpsrOf_slot2 (c : CoreState) (k : CoreId) (m : Mode) (v : Word) :
    (c.setSpsrOf k m v).slot2 = c.slot2 := by
  cases m <;> rfl
@[simp] theorem CoreState.setSpsrOf_ptr (c : CoreState) (k : CoreId) (m : Mode) (v : Word) :
    (c.setSpsrOf k m v).ptr = c.ptr := by
  cases m <;> rfl
@[simp] theorem CoreState.setSpsrOf_needsFlush (c : CoreState) (k : CoreId) (m : Mode) (v : Word) :
    (c.setSpsrOf k m v).needsFlush = c.needsFlush := by
  cases m <;> rfl
@[simp] theorem CoreState.setSpsrOf_running (c : CoreState) (k : CoreId) (m : Mode) (v : Word) :
    (c.setSpsrOf k m v).running = c.running := by
  cases m <;> rfl
@[simp] theorem CoreState.setSpsrOf_idleState (c : CoreState) (k : CoreId) (m : Mode) (v : Word) :
    (c.setSpsrOf k m v).idleState = c.idleState := by
  cases m <;> rfl
@[simp] theorem CoreState.setSpsrOf_waitCount (c : CoreState) (k : CoreId) (m : Mode) (v : Word) :
    (c.setSpsrOf k m v).waitCount = c.waitCount := by
  cases m <;> rfl
@[simp] theorem CoreState.setSpsrOf_waitAnySel (c : CoreState) (k : CoreId) (m : Mode) (v : Word) :
    (c.setSpsrOf k m v).waitAnySel = c.waitAnySel := by
  cases m <;> rfl
@[simp] theorem CoreState.setSpsrOf_cycles (c : CoreState) (k : CoreId) (m : Mode) (v : Word) :
    (c.setSpsrOf k m v).cycles = c.cycles := by
  cases m <;> rfl
@[simp] theorem CoreState.setSpsrOf_dbgTag (c : CoreState) (k : CoreId) (m : Mode) (v : Word) :
    (c.setSpsrOf k m v).dbgTag = c.dbgTag := by
  cases m <;> rfl
@[simp] theorem CoreState.setSpsrOf_dbgOperand (c : CoreState) (k : CoreId) (m : Mode) (v : Word) :
    (c.setSpsrOf k m v).dbgOperand = c.dbgOperand := by
  cases m <;> rfl
@[simp] theorem CoreState.setSpsrOf_diag (c : CoreState) (k : CoreId) (m : Mode) (v : Word) :
    (c.setSpsrOf k m v).diag = c.diag := by
  cases m <;> rfl

@[simp] theorem CoreState.setSpsr_regs (c : CoreState) (k : CoreId) (v : Word) :
    (c.setSpsr k v).regs = c.regs := by
  unfold CoreState.setSpsr
  simp
@[simp] theorem CoreState.setSpsr_cpsr (c : CoreState) (k : CoreId) (v : Word) :
    (c.setSpsr k v).cpsr = c.cpsr := by
  unfold CoreState.setSpsr
  simp
@[simp] theorem CoreState.setSpsr_slot0 (c : CoreState) (k : CoreId) (v : Word) :
    (c.setSpsr k v).slot0 = c.slot0 := by
  unfold CoreState.setSpsr
  simp
@[simp] theorem CoreState.setSpsr_slot1 (c : CoreState) (k : CoreId) (v : Word) :
    (c.setSpsr k v).slot1 = c.slot1 := by
  unfold CoreState.setSpsr
  simp
@[simp] theorem CoreState.setSpsr_slot2 (c : CoreState) (k : CoreId) (v : Word) :
    (c.setSpsr k v).slot2 = c.slot2 := by
  unfold CoreState.setSpsr
  simp
@[simp] theorem CoreState.setSpsr_ptr (c : CoreState) (k : CoreId) (v : Word) : (c.setSpsr k v).ptr = c.ptr := by
  unfold CoreState.setSpsr
  simp
@[simp] theorem CoreState.setSpsr_needsFlush (c : CoreState) (k : CoreId) (v : Word) :
    (c.setSpsr k v).needsFlush = c.needsFlush := by
  unfold CoreState.setSpsr
  simp
@[simp] theorem CoreState.setSpsr_running (c : CoreState) (k : CoreId) (v : Word) :
    (c.setSpsr k v).running = c.running := by
  unfold CoreState.setSpsr
  simp
@[simp] theorem CoreState.setSpsr_idleState (c : CoreState) (k : CoreId) (v : Word) :
    (c.setSpsr k v).idleState = c.idleState := by
  unfold CoreState.setSpsr
  simp
@[simp] theorem CoreState.setSpsr_waitCount (c : CoreState) (k : CoreId) (v : Word) :
    (c.setSpsr k v).waitCount = c.waitCount := by
  unfold CoreState.setSpsr
  simp
@[simp] theorem CoreState.setSpsr_waitAnySel (c : CoreState) (k : CoreId) (v : Word) :
    (c.setSpsr k v).waitAnySel = c.waitAnySel := by
  unfold CoreState.setSpsr
  simp
@[simp] theorem CoreState.setSpsr_cycles (c : CoreState) (k : CoreId) (v : Word) :
    (c.setSpsr k v).cycles = c.cycles := by
  unfold CoreState.setSpsr
  simp
@[simp] theorem CoreState.setSpsr_dbgTag (c : CoreState) (k : CoreId) (v : Word) :
    (c.setSpsr k v).dbgTag = c.dbgTag := by
  unfold CoreState.setSpsr
  simp
@[simp] theorem CoreState.setSpsr_dbgOperand (c : CoreState) (k : CoreId) (v : Word) :
    (c.setSpsr k v).dbgOperand = c.dbgOperand := by
  unfold CoreState.setSpsr
  simp
@[simp] theorem CoreState.setSpsr_diag (c : CoreState) (k : CoreId) (v : Word) :
    (c.setSpsr k v).diag = c.diag := by
  unfold CoreState.setSpsr
  simp

@[simp] theorem CoreState.branchExchange_spsrFiq (c : CoreState) (k : CoreId) (t : Word) :
    (c.branchExchange k t).spsrFiq = c.spsrFiq := rfl
@[simp] theorem CoreState.branchExchange_spsrSvc (c : CoreState) (k : CoreId) (t : Word) :
    (c.branchExchange k t).spsrSvc = c.spsrSvc := rfl
@[simp] theorem CoreState.branchExchange_spsrAbt (c : CoreState) (k : CoreId) (t : Word) :
    (c.branchExchange k t).spsrAbt = c.spsrAbt := rfl
@[simp] theorem CoreState.branchExchange_spsrIrq (c : CoreState) (k : CoreId) (t : Word) :
    (c.branchExchange k t).spsrIrq = c.spsrIrq := rfl
@[simp] theorem CoreState.branchExchange_spsrUnd (c : CoreState) (k : CoreId) (t : Word) :
    (c.branchExchange k t).spsrUnd = c.spsrUnd := rfl
@[simp] theorem CoreState.branchExchange_slot0 (c : CoreState) (k : CoreId) (t : Word) :
    (c.branchExchange k t).slot0 = c.slot0 := rfl
@[simp] theorem CoreState.branchExchange_slot1 (c : CoreState) (k : CoreId) (t : Word) :
    (c.branchExchange k t).slot1 = c.slot1 := rfl
@[simp] theorem CoreState.branchExchange_slot2 (c : CoreState) (k : CoreId) (t : Word) :
    (c.branchExchange k t).slot2 = c.slot2 := rfl
@[simp] theorem CoreState.branchExchange_ptr (c : CoreState) (k : CoreId) (t : Word) :
    (c.branchExchange k t).ptr = c.ptr := rfl
@[simp] theorem CoreState.branchExchange_running (c : CoreState) (k : CoreId) (t : Word) :
    (c.branchExchange k t).running = c.running := rfl
@[simp] theorem CoreState.branchExchange_idleState (c : CoreState) (k : CoreId) (t : Word) :
    (c.branchExchange k t).idleState = c.idleState := rfl
@[simp] theorem CoreState.branchExchange_waitCount (c : CoreState) (k : CoreId) (t : Word) :
    (c.branchExchange k t).waitCount = c.waitCount := rfl
@[simp] theorem CoreState.branchExchange_waitAnySel (c : CoreState) (k : CoreId) (t : Word) :
    (c.branchExchange k t).waitAnySel = c.waitAnySel := rfl
@[simp] theorem CoreState.branchExchange_cycles (c : CoreState) (k : CoreId) (t : Word) :
    (c.branchExchange k t).cycles = c.cycles := rfl
@[simp] theorem CoreState.branchExchange_dbgTag (c : CoreState) (k : CoreId) (t : Word) :
    (c.branchExchange k t).dbgTag = c.dbgTag := rfl
@[simp] theorem CoreState.branchExchange_dbgOperand (c : CoreState) (k : CoreId) (t : Word) :
    (c.branchExchange k t).dbgOperand = c.dbgOperand := rfl
@[simp] theorem CoreState.branchExchange_diag (c : CoreState) (k : CoreId) (t : Word) :
    (c.branchExchange k t).diag = c.diag := rfl

@[simp] theorem CoreState.setSlot_regs (c : CoreState) (i : Fin 3) (sl : Slot) :
    (c.setSlot i sl).regs = c.regs := by
  unfold CoreState.setSlot
  split <;> rfl
@[simp] theorem CoreState.setSlot_cpsr (c : CoreState) (i : Fin 3) (sl : Slot) :
    (c.setSlot i sl).cpsr = c.cpsr := by
  unfold CoreState.setSlot
  split <;> rfl
@[simp] theorem CoreState.setSlot_spsrFiq (c : CoreState) (i : Fin 3) (sl : Slot) :
    (c.setSlot i sl).spsrFiq = c.spsrFiq := by
  unfold CoreState.setSlot
  split <;> rfl
@[simp] theorem CoreState.setSlot_spsrSvc (c : CoreState) (i : Fin 3) (sl : Slot) :
    (c.setSlot i sl).spsrSvc = c.spsrSvc := by
  unfold CoreState.setSlot
  split <;> rfl
@[simp] theorem CoreState.setSlot_spsrAbt (c : CoreState) (i : Fin 3) (sl : Slot) :
    (c.setSlot i sl).spsrAbt = c.spsrAbt := by
  unfold CoreState.setSlot
  split <;> rfl
@[simp] theorem CoreState.setSlot_spsrIrq (c : CoreState) (i : Fin 3) (sl : Slot) :
    (c.setSlot i sl).spsrIrq = c.spsrIrq := by
  unfold CoreState.setSlot
  split <;> rfl
@[simp] theorem CoreState.setSlot_spsrUnd (c : CoreState) (i : Fin 3) (sl : Slot) :
    (c.setSlot i sl).spsrUnd = c.spsrUnd := by
  unfold CoreState.setSlot
  split <;> rfl
@[simp] theorem CoreState.setSlot_ptr (c : CoreState) (i : Fin 3) (sl : Slot) : (c.setSlot i sl).ptr = c.ptr := by
  unfold CoreState.setSlot
  split <;> rfl
@[simp] theorem CoreState.setSlot_needsFlush (c : CoreState) (i : Fin 3) (sl : Slot) :
    (c.setSlot i sl).needsFlush = c.needsFlush := by
  unfold CoreState.setSlot
  split <;> rfl
@[simp] theorem CoreState.setSlot_running (c : CoreState) (i : Fin 3) (sl : Slot) :
    (c.setSlot i sl).running = c.running := by
  unfold CoreState.setSlot
  split <;> rfl
@[simp] theorem CoreState.setSlot_idleState (c : CoreState) (i : Fin 3) (sl : Slot) :
    (c.setSlot i sl).idleState = c.idleState := by
  unfold CoreState.setSlot
  split <;> rfl
@[simp] theorem CoreState.setSlot_waitCount (c : CoreState) (i : Fin 3) (sl : Slot) :
    (c.setSlot i sl).waitCount = c.waitCount := by
  unfold CoreState.setSlot
  split <;> rfl
@[simp] theorem CoreState.setSlot_waitAnySel (c : CoreState) (i : Fin 3) (sl : Slot) :
    (c.setSlot i sl).waitAnySel = c.waitAnySel := by
  unfold CoreState.setSlot
  split <;> rfl
@[simp] theorem CoreState.setSlot_cycles (c : CoreState) (i : Fin 3) (sl : Slot) :
    (c.setSlot i sl).cycles = c.cycles := by
  unfold CoreState.setSlot
  split <;> rfl
@[simp] theorem CoreState.setSlot_dbgTag (c : CoreState) (i : Fin 3) (sl : Slot) :
    (c.setSlot i sl).dbgTag = c.dbgTag := by
  unfold CoreState.setSlot
  split <;> rfl
@[simp] theorem CoreState.setSlot_dbgOperand (c : CoreState) (i : Fin 3) (sl : Slot) :
    (c.setSlot i sl).dbgOperand = c.dbgOperand := by
  unfold CoreState.setSlot
  split <;> rfl
@[simp] theorem CoreState.setSlot_diag (c : CoreState) (i : Fin 3) (sl : Slot) :
    (c.setSlot i sl).diag = c.diag := by
  unfold CoreState.setSlot
  split <;> rfl

@[simp] theorem CoreState.setExecSlot_regs (c : CoreState) (sl : Slot) : (c.setExecSlot sl).regs = c.regs := by
  simp [CoreState.setExecSlot]
@[simp] theorem CoreState.setExecSlot_cpsr (c : CoreState) (sl : Slot) : (c.setExecSlot sl).cpsr = c.cpsr := by
  simp [CoreState.setExecSlot]
@[simp] theorem CoreState.setExecSlot_spsrFiq (c : CoreState) (sl : Slot) : (c.setExecSlot sl).spsrFiq = c.spsrFiq := by
  simp [CoreState.setExecSlot]
@[simp] theorem CoreState.setExecSlot_spsrSvc (c : CoreState) (sl : Slot) : (c.setExecSlot sl).spsrSvc = c.spsrSvc := by
  simp [CoreState.setExecSlot]
@[simp] theorem CoreState.setExecSlot_spsrAbt (c : CoreState) (sl : Slot) : (c.setExecSlot sl).spsrAbt = c.spsrAbt := by
  simp [CoreState.setExecSlot]
@[simp] theorem CoreState.setExecSlot_spsrIrq (c : CoreState) (sl : Slot) : (c.setExecSlot sl).spsrIrq = c.spsrIrq := by
  simp [CoreState.setExecSlot]
@[simp] theorem CoreState.setExecSlot_spsrUnd (c : CoreState) (sl : Slot) : (c.setExecSlot sl).spsrUnd = c.spsrUnd := by
  simp [CoreState.setExecSlot]
@[simp] theorem CoreState.setExecSlot_ptr (c : CoreState) (sl : Slot) : (c.setExecSlot sl).ptr = c.ptr := by
  simp [CoreState.setExecSlot]
@[simp] theorem CoreState.setExecSlot_needsFlush (c : CoreState) (sl : Slot) :
    (c.setExecSlot sl).needsFlush = c.needsFlush := by
  simp [CoreState.setExecSlot]
@[simp] theorem CoreState.setExecSlot_running (c : CoreState) (sl : Slot) : (c.setExecSlot sl).running = c.running := by
  simp [CoreState.setExecSlot]
@[simp] theorem CoreState.setExecSlot_idleState (c : CoreState) (sl : Slot) : (c.setExecSlot sl).idleState = c.idleState := by
  simp [CoreState.setExecSlot]
@[simp] theorem CoreState.setExecSlot_waitCount (c : CoreState) (sl : Slot) : (c.setExecSlot sl).waitCount = c.waitCount := by
  simp [CoreState.setExecSlot]
@[simp] theorem CoreState.setExecSlot_waitAnySel (c : CoreState) (sl : Slot) :
    (c.setExecSlot sl).waitAnySel = c.waitAnySel := by
  simp [CoreState.setExecSlot]
@[simp] theorem CoreState.setExecSlot_cycles (c : CoreState) (sl : Slot) : (c.setExecSlot sl).cycles = c.cycles := by
  simp [CoreState.setExecSlot]
@[simp] theorem CoreState.setExecSlot_dbgTag (c : CoreState) (sl : Slot) : (c.setExecSlot sl).dbgTag = c.dbgTag := by
  simp [CoreState.setExecSlot]
@[simp] theorem CoreState.setExecSlot_dbgOperand (c : CoreState) (sl : Slot) :
    (c.setExecSlot sl).dbgOperand = c.dbgOperand := by
  simp [CoreState.setExecSlot]
@[simp] theorem CoreState.setExecSlot_diag (c : CoreState) (sl : Slot) : (c.setExecSlot sl).diag = c.diag := by
  simp [CoreState.setExecSlot]

@[simp] theorem CoreState.recordAddr_regs (c : CoreState) (i : Reg) (addr : Word) :
    (c.recordAddr i addr).regs = c.regs := by
  simp [CoreState.recordAddr, CoreState.setExecSlot]
@[simp] theorem CoreState.recordAddr_cpsr (c : CoreState) (i : Reg) (addr : Word) :
    (c.recordAddr i addr).cpsr = c.cpsr := by
  simp [CoreState.recordAddr, CoreState.setExecSlot]
@[simp] theorem CoreState.recordAddr_spsrFiq (c : CoreState) (i : Reg) (addr : Word) :
    (c.recordAddr i addr).spsrFiq = c.spsrFiq := by
  simp [CoreState.recordAddr, CoreState.setExecSlot]
@[simp] theorem CoreState.recordAddr_spsrSvc (c : CoreState) (i : Reg) (addr : Word) :
    (c.recordAddr i addr).spsrSvc = c.spsrSvc := by
  simp [CoreState.recordAddr, CoreState.setExecSlot]
@[simp] theorem CoreState.recordAddr_spsrAbt (c : CoreState) (i : Reg) (addr : Word) :
    (c.recordAddr i addr).spsrAbt = c.spsrAbt := by
  simp [CoreState.recordAddr, CoreState.setExecSlot]
@[simp] theorem CoreState.recordAddr_spsrIrq (c : CoreState) (i : Reg) (addr : Word) :
    (c.recordAddr i addr).spsrIrq = c.spsrIrq := by
  simp [CoreState.recordAddr, CoreState.setExecSlot]
@[simp] theorem CoreState.recordAddr_spsrUnd (c : CoreState) (i : Reg) (addr : Word) :
    (c.recordAddr i addr).spsrUnd = c.spsrUnd := by
  simp [CoreState.recordAddr, CoreState.setExecSlot]
@[simp] theorem CoreState.recordAddr_ptr (c : CoreState) (i : Reg) (addr : Word) :
    (c.recordAddr i addr).ptr = c.ptr := by
  simp [CoreState.recordAddr, CoreState.setExecSlot]
@[simp] theorem CoreState.recordAddr_needsFlush (c : CoreState) (i : Reg) (addr : Word) :
    (c.recordAddr i addr).needsFlush = c.needsFlush := by
  simp [CoreState.recordAddr, CoreState.setExecSlot]
@[simp] theorem CoreState.recordAddr_running (c : CoreState) (i : Reg) (addr : Word) :
    (c.recordAddr i addr).running = c.running := by
  simp [CoreState.recordAddr, CoreState.setExecSlot]
@[simp] theorem CoreState.recordAddr_idleState (c : CoreState) (i : Reg) (addr : Word) :
    (c.recordAddr i addr).idleState = c.idleState := by
  simp [CoreState.recordAddr, CoreState.setExecSlot]
@[simp] theorem CoreState.recordAddr_waitCount (c : CoreState) (i : Reg) (addr : Word) :
    (c.recordAddr i addr).waitCount = c.waitCount := by
  simp [CoreState.recordAddr, CoreState.setExecSlot]
@[simp] theorem CoreState.recordAddr_waitAnySel (c : CoreState) (i : Reg) (addr : Word) :
    (c.recordAddr i addr).waitAnySel = c.waitAnySel := by
  simp [CoreState.recordAddr, CoreState.setExecSlot]
@[simp] theorem CoreState.recordAddr_cycles (c : CoreState) (i : Reg) (addr : Word) :
    (c.recordAddr i addr).cycles = c.cycles := by
  simp [CoreState.recordAddr, CoreState.setExecSlot]
@[simp] theorem CoreState.recordAddr_dbgTag (c : CoreState) (i : Reg) (addr : Word) :
    (c.recordAddr i addr).dbgTag = c.dbgTag := by
  simp [CoreState.recordAddr, CoreState.setExecSlot]
@[simp] theorem CoreState.recordAddr_dbgOperand (c : CoreState) (i : Reg) (addr : Word) :
    (c.recordAddr i addr).dbgOperand = c.dbgOperand := by
  simp [CoreState.recordAddr, CoreState.setExecSlot]
@[simp] theorem CoreState.recordAddr_diag (c : CoreState) (i : Reg) (addr : Word) :
    (c.recordAddr i addr).diag = c.diag := by
  simp [CoreState.recordAddr, CoreState.setExecSlot]

@[simp] theorem CoreState.stage_regs (c : CoreState) (i : Reg) (p : PhysReg) (addr v : Word) :
    (c.stage i p addr v).regs = c.regs := by
  simp [CoreState.stage, CoreState.setExecSlot]
@[simp] theorem CoreState.stage_cpsr (c : CoreState) (i : Reg) (p : PhysReg) (addr v : Word) :
    (c.stage i p addr v).cpsr = c.cpsr := by
  simp [CoreState.stage, CoreState.setExecSlot]
@[simp] theorem CoreState.stage_spsrFiq (c : CoreState) (i : Reg) (p : PhysReg) (addr v : Word) :
    (c.stage i p addr v).spsrFiq = c.spsrFiq := by
  simp [CoreState.stage, CoreState.setExecSlot]
@[simp] theorem CoreState.stage_spsrSvc (c : CoreState) (i : Reg) (p : PhysReg) (addr v : Word) :
    (c.stage i p addr v).spsrSvc = c.spsrSvc := by
  simp [CoreState.stage, CoreState.setExecSlot]
@[simp] theorem CoreState.stage_spsrAbt (c : CoreState) (i : Reg) (p : PhysReg) (addr v : Word) :
    (c.stage i p addr v).spsrAbt = c.spsrAbt := by
  simp [CoreState.stage, CoreState.setExecSlot]
@[simp] theorem CoreState.stage_spsrIrq (c : CoreState) (i : Reg) (p : PhysReg) (addr v : Word) :
    (c.stage i p addr v).spsrIrq = c.spsrIrq := by
  simp [CoreState.stage, CoreState.setExecSlot]
@[simp] theorem CoreState.stage_spsrUnd (c : CoreState) (i : Reg) (p : PhysReg) (addr v : Word) :
    (c.stage i p addr v).spsrUnd = c.spsrUnd := by
  simp [CoreState.stage, CoreState.setExecSlot]
@[simp] theorem CoreState.stage_ptr (c : CoreState) (i : Reg) (p : PhysReg) (addr v : Word) :
    (c.stage i p addr v).ptr = c.ptr := by
  simp [CoreState.stage, CoreState.setExecSlot]
@[simp] theorem CoreState.stage_needsFlush (c : CoreState) (i : Reg) (p : PhysReg) (addr v : Word) :
    (c.stage i p addr v).needsFlush = c.needsFlush := by
  simp [CoreState.stage, CoreState.setExecSlot]
@[simp] theorem CoreState.stage_running (c : CoreState) (i : Reg) (p : PhysReg) (addr v : Word) :
    (c.stage i p addr v).running = c.running := by
  simp [CoreState.stage, CoreState.setExecSlot]
@[simp] theorem CoreState.stage_idleState (c : CoreState) (i : Reg) (p : PhysReg) (addr v : Word) :
    (c.stage i p addr v).idleState = c.idleState := by
  simp [CoreState.stage, CoreState.setExecSlot]
@[simp] theorem CoreState.stage_waitCount (c : CoreState) (i : Reg) (p : PhysReg) (addr v : Word) :
    (c.stage i p addr v).waitCount = c.waitCount := by
  simp [CoreState.stage, CoreState.setExecSlot]
@[simp] theorem CoreState.stage_waitAnySel (c : CoreState) (i : Reg) (p : PhysReg) (addr v : Word) :
    (c.stage i p addr v).waitAnySel = c.waitAnySel := by
  simp [CoreState.stage, CoreState.setExecSlot]
@[simp] theorem CoreState.stage_cycles (c : CoreState) (i : Reg) (p : PhysReg) (addr v : Word) :
    (c.stage i p addr v).cycles = c.cycles := by
  simp [CoreState.stage, CoreState.setExecSlot]
@[simp] theorem CoreState.stage_dbgTag (c : CoreState) (i : Reg) (p : PhysReg) (addr v : Word) :
    (c.stage i p addr v).dbgTag = c.dbgTag := by
  simp [CoreState.stage, CoreState.setExecSlot]
@[simp] theorem CoreState.stage_dbgOperand (c : CoreState) (i : Reg) (p : PhysReg) (addr v : Word) :
    (c.stage i p addr v).dbgOperand = c.dbgOperand := by
  simp [CoreState.stage, CoreState.setExecSlot]
@[simp] theorem CoreState.stage_diag (c : CoreState) (i : Reg) (p : PhysReg) (addr v : Word) :
    (c.stage i p addr v).diag = c.diag := by
  simp [CoreState.stage, CoreState.setExecSlot]

@[simp] theorem CoreState.accessMem_regs (c : CoreState) : (c.accessMem).regs = c.regs := by
  simp [CoreState.accessMem, CoreState.setExecSlot]
@[simp] theorem CoreState.accessMem_cpsr (c : CoreState) : (c.accessMem).cpsr = c.cpsr := by
  simp [CoreState.accessMem, CoreState.setExecSlot]
@[simp] theorem CoreState.accessMem_spsrFiq (c : CoreState) : (c.accessMem).spsrFiq = c.spsrFiq := by
  simp [CoreState.accessMem, CoreState.setExecSlot]
@[simp] theorem CoreState.accessMem_spsrSvc (c : CoreState) : (c.accessMem).spsrSvc = c.spsrSvc := by
  simp [CoreState.accessMem, CoreState.setExecSlot]
@[simp] theorem CoreState.accessMem_spsrAbt (c : CoreState) : (c.accessMem).spsrAbt = c.spsrAbt := by
  simp [CoreState.accessMem, CoreState.setExecSlot]
@[simp] theorem CoreState.accessMem_spsrIrq (c : CoreState) : (c.accessMem).spsrIrq = c.spsrIrq := by
  simp [CoreState.accessMem, CoreState.setExecSlot]
@[simp] theorem CoreState.accessMem_spsrUnd (c : CoreState) : (c.accessMem).spsrUnd = c.spsrUnd := by
  simp [CoreState.accessMem, CoreState.setExecSlot]
@[simp] theorem CoreState.accessMem_ptr (c : CoreState) : (c.accessMem).ptr = c.ptr := by
  simp [CoreState.accessMem, CoreState.setExecSlot]
@[simp] theorem CoreState.accessMem_needsFlush (c : CoreState) : (c.accessMem).needsFlush = c.needsFlush := by
  simp [CoreState.accessMem, CoreState.setExecSlot]
@[simp] theorem CoreState.accessMem_running (c : CoreState) : (c.accessMem).running = c.running := by
  simp [CoreState.accessMem, CoreState.setExecSlot]
@[simp] theorem CoreState.accessMem_idleState (c : CoreState) : (c.accessMem).idleState = c.idleState := by
  simp [CoreState.accessMem, CoreState.setExecSlot]
@[simp] theorem CoreState.accessMem_waitCount (c : CoreState) : (c.accessMem).waitCount = c.waitCount := by
  simp [CoreState.accessMem, CoreState.setExecSlot]
@[simp] theorem CoreState.accessMem_waitAnySel (c : CoreState) : (c.accessMem).waitAnySel = c.waitAnySel := by
  simp [CoreState.accessMem, CoreState.setExecSlot]
@[simp] theorem CoreState.accessMem_cycles (c : CoreState) : (c.accessMem).cycles = c.cycles := by
  simp [CoreState.accessMem, CoreState.setExecSlot]
@[simp] theorem CoreState.accessMem_dbgTag (c : CoreState) : (c.accessMem).dbgTag = c.dbgTag := by
  simp [CoreState.accessMem, CoreState.setExecSlot]
@[simp] theorem CoreState.accessMem_dbgOperand (c : CoreState) : (c.accessMem).dbgOperand = c.dbgOperand := by
  simp [CoreState.accessMem, CoreState.setExecSlot]
@[simp] theorem CoreState.accessMem_diag (c : CoreState) : (c.accessMem).diag = c.diag := by
  simp [CoreState.accessMem, CoreState.setExecSlot]

@[simp] theorem CoreState.clearStaged_regs (c : CoreState) : (c.clearStaged).regs = c.regs := by
  simp [CoreState.clearStaged, CoreState.setExecSlot]
@[simp] theorem CoreState.clearStaged_cpsr (c : CoreState) : (c.clearStaged).cpsr = c.cpsr := by
  simp [CoreState.clearStaged, CoreState.setExecSlot]
@[simp] theorem CoreState.clearStaged_spsrFiq (c : CoreState) : (c.clearStaged).spsrFiq = c.spsrFiq := by
  simp [CoreState.clearStaged, CoreState.setExecSlot]
@[simp] theorem CoreState.clearStaged_spsrSvc (c : CoreState) : (c.clearStaged).spsrSvc = c.spsrSvc := by
  simp [CoreState.clearStaged, CoreState.setExecSlot]
@[simp] theorem CoreState.clearStaged_spsrAbt (c : CoreState) : (c.clearStaged).spsrAbt = c.spsrAbt := by
  simp [CoreState.clearStaged, CoreState.setExecSlot]
@[simp] theorem CoreState.clearStaged_spsrIrq (c : CoreState) : (c.clearStaged).spsrIrq = c.spsrIrq := by
  simp [CoreState.clearStaged, CoreState.setExecSlot]
@[simp] theorem CoreState.clearStaged_spsrUnd (c : CoreState) : (c.clearStaged).spsrUnd = c.spsrUnd := by
  simp [CoreState.clearStaged, CoreState.setExecSlot]
@[simp] theorem CoreState.clearStaged_ptr (c : CoreState) : (c.clearStaged).ptr = c.ptr := by
  simp [CoreState.clearStaged, CoreState.setExecSlot]
@[simp] theorem CoreState.clearStaged_needsFlush (c : CoreState) : (c.clearStaged).needsFlush = c.needsFlush := by
  simp [CoreState.clearStaged, CoreState.setExecSlot]
@[simp] theorem CoreState.clearStaged_running (c : CoreState) : (c.clearStaged).running = c.running := by
  simp [CoreState.clearStaged, CoreState.setExecSlot]
@[simp] theorem CoreState.clearStaged_idleState (c : CoreState) : (c.clearStaged).idleState = c.idleState := by
  simp [CoreState.clearStaged, CoreState.setExecSlot]
@[simp] theorem CoreState.clearStaged_waitCount (c : CoreState) : (c.clearStaged).waitCount = c.waitCount := by
  simp [CoreState.clearStaged, CoreState.setExecSlot]
@[simp] theorem CoreState.clearStaged_waitAnySel (c : CoreState) : (c.clearStaged).waitAnySel = c.waitAnySel := by
  simp [CoreState.clearStaged, CoreState.setExecSlot]
@[simp] theorem CoreState.clearStaged_cycles (c : CoreState) : (c.clearStaged).cycles = c.cycles := by
  simp [CoreState.clearStaged, CoreState.setExecSlot]
@[simp] theorem CoreState.clearStaged_dbgTag (c : CoreState) : (c.clearStaged).dbgTag = c.dbgTag := by
  simp [CoreState.clearStaged, CoreState.setExecSlot]
@[simp] theorem CoreState.clearStaged_dbgOperand (c : CoreState) : (c.clearStaged).dbgOperand = c.dbgOperand := by
  simp [CoreState.clearStaged, CoreState.setExecSlot]
@[simp] theorem CoreState.clearStaged_diag (c : CoreState) : (c.clearStaged).diag = c.diag := by
  simp [CoreState.clearStaged, CoreState.setExecSlot]

@[simp] theorem CoreState.charge_regs (c : CoreState) (n : Nat) : (c.charge n).regs = c.regs := rfl
@[simp] theorem CoreState.charge_cpsr (c : CoreState) (n : Nat) : (c.charge n).cpsr = c.cpsr := rfl
@[simp] theorem CoreState.charge_spsrFiq (c : CoreState) (n : Nat) : (c.charge n).spsrFiq = c.spsrFiq := rfl
@[simp] theorem CoreState.charge_spsrSvc (c : CoreState) (n : Nat) : (c.charge n).spsrSvc = c.spsrSvc := rfl
@[simp] theorem CoreState.charge_spsrAbt (c : CoreState) (n : Nat) : (c.charge n).spsrAbt = c.spsrAbt := rfl
@[simp] theorem CoreState.charge_spsrIrq (c : CoreState) (n : Nat) : (c.charge n).spsrIrq = c.spsrIrq := rfl
@[simp] theorem CoreState.charge_spsrUnd (c : CoreState) (n : Nat) : (c.charge n).spsrUnd = c.spsrUnd := rfl
@[simp] theorem CoreState.charge_slot0 (c : CoreState) (n : Nat) : (c.charge n).slot0 = c.slot0 := rfl
@[simp] theorem CoreState.charge_slot1 (c : CoreState) (n : Nat) : (c.charge n).slot1 = c.slot1 := rfl
@[simp] theorem CoreState.charge_slot2 (c : CoreState) (n : Nat) : (c.charge n).slot2 = c.slot2 := rfl
@[simp] theorem CoreState.charge_ptr (c : CoreState) (n : Nat) : (c.charge n).ptr = c.ptr := rfl
@[simp] theorem CoreState.charge_needsFlush (c : CoreState) (n : Nat) : (c.charge n).needsFlush = c.needsFlush := rfl
@[simp] theorem CoreState.charge_running (c : CoreState) (n : Nat) : (c.charge n).running = c.running := rfl
@[simp] theorem CoreState.charge_idleState (c : CoreState) (n : Nat) : (c.charge n).idleState = c.idleState := rfl
@[simp] theorem CoreState.charge_waitCount (c : CoreState) (n : Nat) : (c.charge n).waitCount = c.waitCount := rfl
@[simp] theorem CoreState.charge_waitAnySel (c : CoreState) (n : Nat) : (c.charge n).waitAnySel = c.waitAnySel := rfl
@[simp] theorem CoreState.charge_dbgTag (c : CoreState) (n : Nat) : (c.charge n).dbgTag = c.dbgTag := rfl
@[simp] theorem CoreState.charge_dbgOperand (c : CoreState) (n : Nat) : (c.charge n).dbgOperand = c.dbgOperand := rfl
@[simp] theorem CoreState.charge_diag (c : CoreState) (n : Nat) : (c.charge n).diag = c.diag := rfl

@[simp] theorem CoreState.enterException_slot0 (c : CoreState) (k : CoreId) (vb : Word) (m : Mode) (off lr : Word) (f : Bool) :
    (c.enterException k vb m off lr f).slot0 = c.slot0 := by
  simp [CoreState.enterException]
@[simp] theorem CoreState.enterException_slot1 (c : CoreState) (k : CoreId) (vb : Word) (m : Mode) (off lr : Word) (f : Bool) :
    (c.enterException k vb m off lr f).slot1 = c.slot1 := by
  simp [CoreState.enterException]
@[simp] theorem CoreState.enterException_slot2 (c : CoreState) (k : CoreId) (vb : Word) (m : Mode) (off lr : Word) (f : Bool) :
    (c.enterException k vb m off lr f).slot2 = c.slot2 := by
  simp [CoreState.enterException]
@[simp] theorem CoreState.enterException_ptr (c : CoreState) (k : CoreId) (vb : Word) (m : Mode) (off lr : Word) (f : Bool) :
    (c.enterException k vb m off lr f).ptr = c.ptr := by
  simp [CoreState.enterException]
@[simp] theorem CoreState.enterException_running (c : CoreState) (k : CoreId) (vb : Word) (m : Mode) (off lr : Word) (f : Bool) :
    (c.enterException k vb m off lr f).running = c.running := by
  simp [CoreState.enterException]
@[simp] theorem CoreState.enterException_idleState (c : CoreState) (k : CoreId) (vb : Word) (m : Mode) (off lr : Word) (f : Bool) :
    (c.enterException k vb m off lr f).idleState = c.idleState := by
  simp [CoreState.enterException]
@[simp] theorem CoreState.enterException_waitCount (c : CoreState) (k : CoreId) (vb : Word) (m : Mode) (off lr : Word) (f : Bool) :
    (c.enterException k vb m off lr f).waitCount = c.waitCount := by
  simp [CoreState.enterException]
@[simp] theorem CoreState.enterException_waitAnySel (c : CoreState) (k : CoreId) (vb : Word) (m : Mode) (off lr : Word) (f : Bool) :
    (c.enterException k vb m off lr f).waitAnySel = c.waitAnySel := by
  simp [CoreState.enterException]
@[simp] theorem CoreState.enterException_cycles (c : CoreState) (k : CoreId) (vb : Word) (m : Mode) (off lr : Word) (f : Bool) :
    (c.enterException k vb m off lr f).cycles = c.cycles := by
  simp [CoreState.enterException]
@[simp] theorem CoreState.enterException_dbgTag (c : CoreState) (k : CoreId) (vb : Word) (m : Mode) (off lr : Word) (f : Bool) :
    (c.enterException k vb m off lr f).dbgTag = c.dbgTag := by
  simp [CoreState.enterException]
@[simp] theorem CoreState.enterException_dbgOperand (c : CoreState) (k : CoreId) (vb : Word) (m : Mode) (off lr : Word) (f : Bool) :
    (c.enterException k vb m off lr f).dbgOperand = c.dbgOperand := by
  simp [CoreState.enterException]
@[simp] theorem CoreState.enterException_diag (c : CoreState) (k : CoreId) (vb : Word) (m : Mode) (off lr : Word) (f : Bool) :
    (c.enterException k vb m off lr f).diag = c.diag := by
  simp [CoreState.enterException]

@[simp] theorem CoreState.flush_regs (c : CoreState) : (c.flush).regs = c.regs := rfl
@[simp] theorem CoreState.flush_cpsr (c : CoreState) : (c.flush).cpsr = c.cpsr := rfl
@[simp] theorem CoreState.flush_spsrFiq (c : CoreState) : (c.flush).spsrFiq = c.spsrFiq := rfl
@[simp] theorem CoreState.flush_spsrSvc (c : CoreState) : (c.flush).spsrSvc = c.spsrSvc := rfl
@[simp] theorem CoreState.flush_spsrAbt (c : CoreState) : (c.flush).spsrAbt = c.spsrAbt := rfl
@[simp] theorem CoreState.flush_spsrIrq (c : CoreState) : (c.flush).spsrIrq = c.spsrIrq := rfl
@[simp] theorem CoreState.flush_spsrUnd (c : CoreState) : (c.flush).spsrUnd = c.spsrUnd := rfl
@[simp] theorem CoreState.flush_running (c : CoreState) : (c.flush).running = c.running := rfl
@[simp] theorem CoreState.flush_idleState (c : CoreState) : (c.flush).idleState = c.idleState := rfl
@[simp] theorem CoreState.flush_waitCount (c : CoreState) : (c.flush).waitCount = c.waitCount := rfl
@[simp] theorem CoreState.flush_waitAnySel (c : CoreState) : (c.flush).waitAnySel = c.waitAnySel := rfl
@[simp] theorem CoreState.flush_cycles (c : CoreState) : (c.flush).cycles = c.cycles := rfl
@[simp] theorem CoreState.flush_dbgTag (c : CoreState) : (c.flush).dbgTag = c.dbgTag := rfl
@[simp] theorem CoreState.flush_dbgOperand (c : CoreState) : (c.flush).dbgOperand = c.dbgOperand := rfl
@[simp] theorem CoreState.flush_diag (c : CoreState) : (c.flush).diag = c.diag := rfl

@[simp] theorem CoreState.updatePc_cpsr (c : CoreState) : (c.updatePc).cpsr = c.cpsr := rfl
@[simp] theorem CoreState.updatePc_spsrFiq (c : CoreState) : (c.updatePc).spsrFiq = c.spsrFiq := rfl
@[simp] theorem CoreState.updatePc_spsrSvc (c : CoreState) : (c.updatePc).spsrSvc = c.spsrSvc := rfl
@[simp] theorem CoreState.updatePc_spsrAbt (c : CoreState) : (c.updatePc).spsrAbt = c.spsrAbt := rfl
@[simp] theorem CoreState.updatePc_spsrIrq (c : CoreState) : (c.updatePc).spsrIrq = c.spsrIrq := rfl
@[simp] theorem CoreState.updatePc_spsrUnd (c : CoreState) : (c.updatePc).spsrUnd = c.spsrUnd := rfl
@[simp] theorem CoreState.updatePc_slot0 (c : CoreState) : (c.updatePc).slot0 = c.slot0 := rfl
@[simp] theorem CoreState.updatePc_slot1 (c : CoreState) : (c.updatePc).slot1 = c.slot1 := rfl
@[simp] theorem CoreState.updatePc_slot2 (c : CoreState) : (c.updatePc).slot2 = c.slot2 := rfl
@[simp] theorem CoreState.updatePc_needsFlush (c : CoreState) : (c.updatePc).needsFlush = c.needsFlush := rfl
@[simp] theorem CoreState.updatePc_running (c : CoreState) : (c.updatePc).running = c.running := rfl
@[simp] theorem CoreState.updatePc_idleState (c : CoreState) : (c.updatePc).idleState = c.idleState := rfl
@[simp] theorem CoreState.updatePc_waitCount (c : CoreState) : (c.updatePc).waitCount = c.waitCount := rfl
@[simp] theorem CoreState.updatePc_waitAnySel (c : CoreState) : (c.updatePc).waitAnySel = c.waitAnySel := rfl
@[simp] theorem CoreState.updatePc_cycles (c : CoreState) : (c.updatePc).cycles = c.cycles := rfl
@[simp] theorem CoreState.updatePc_dbgTag (c : CoreState) : (c.updatePc).dbgTag = c.dbgTag := rfl
@[simp] theorem CoreState.updatePc_dbgOperand (c : CoreState) : (c.updatePc).dbgOperand = c.dbgOperand := rfl
@[simp] theorem CoreState.updatePc_diag (c : CoreState) : (c.updatePc).diag = c.diag := rfl

@[simp] theorem CoreState.writePc_needsFlush (c : CoreState) (v : Word) : (c.writePc v).needsFlush = true := rfl
@[simp] theorem CoreState.writePc_r15 (c : CoreState) (v : Word) : (c.writePc v).regs.r15 = c.alignPc v := rfl
@[simp] theorem CoreState.setCpsr_cpsr (c : CoreState) (k : CoreId) (v : Word) :
    (c.setCpsr k v).cpsr = v &&& psrMask k := rfl
@[simp] theorem CoreState.charge_cycles (c : CoreState) (n : Nat) : (c.charge n).cycles = c.cycles + n := rfl
@[simp] theorem CoreState.flush_needsFlush (c : CoreState) : c.flush.needsFlush = false := rfl

/-- A write of r15 changes no other register. -/
theorem CoreState.writePc_get (c : CoreState) (v : Word) (p : PhysReg) :
    (c.writePc v).regs.get p = if p = .r15 then c.alignPc v else c.regs.get p := by
  cases p <;> rfl

/-- A register write by number: r15 is aligned and flushes, every other register just gets the value. -/
theorem CoreState.setReg_regs_of_ne (c : CoreState) {i : Reg} (v : Word) (h : i ≠ .r15) :
    c.setReg i v = { c with regs := c.regs.set (phys i c.mode) v } :=
  if_neg h

/-- A write of number 15 is a write of r15. -/
@[simp] theorem CoreState.setReg_r15 (c : CoreState) (v : Word) : c.setReg .r15 v = c.writePc v := rfl

/-- The mode after a register write. -/
@[simp] theorem CoreState.setReg_mode (c : CoreState) (i : Reg) (v : Word) : (c.setReg i v).mode = c.mode := by
  simp [CoreState.mode]

/-- The mode after a write of r15. -/
@[simp] theorem CoreState.writePc_mode (c : CoreState) (v : Word) : (c.writePc v).mode = c.mode := rfl

/-- A slot after it is replaced. -/
@[simp] theorem CoreState.slot_setSlot_self (c : CoreState) (i : Fin 3) (sl : Slot) : (c.setSlot i sl).slot i = sl := by
  match i with
  | 0 => rfl
  | 1 => rfl
  | 2 => rfl

/-- The other slots when one is replaced. -/
theorem CoreState.slot_setSlot_ne (c : CoreState) {i j : Fin 3} (sl : Slot) (h : j ≠ i) :
    (c.setSlot i sl).slot j = c.slot j := by
  match i, j with
  | 0, 0 => exact absurd rfl h
  | 0, 1 => rfl
  | 0, 2 => rfl
  | 1, 0 => rfl
  | 1, 1 => exact absurd rfl h
  | 1, 2 => rfl
  | 2, 0 => rfl
  | 2, 1 => rfl
  | 2, 2 => exact absurd rfl h

/-- The executing slot after it is replaced. -/
@[simp] theorem CoreState.execSlot_setExecSlot (c : CoreState) (sl : Slot) : (c.setExecSlot sl).execSlot = sl := by
  have h : (c.setSlot c.execIdx sl).execIdx = c.execIdx := by
    unfold CoreState.execIdx
    simp
  change (c.setSlot c.execIdx sl).slot (c.setSlot c.execIdx sl).execIdx = sl
  rw [h]
  simp

end Sys2Proof.Machine
end

