-- ==== Sys2Proof/Laws/Operations.lean ====
section
/-! SUPPORT. What each shared operation can do, said once: the provers cite these and unfold no operation. -/

namespace Sys2Proof.Machine

/-! ## Results of a rule -/

/-- A core rule that completes changes the executing core and nothing else. -/
theorem onCore_done {f : CoreRule} {k : CoreId} {s : State} {c : CoreState} (h : f k s.cur = .done c) :
    onCore f k s = .done (s.setCur c) := by
  simp only [onCore, h]

/-- A core rule that stops. -/
theorem onCore_stop {f : CoreRule} {k : CoreId} {s : State} {d : Diag} {c : CoreState} (h : f k s.cur = .stop d c) :
    onCore f k s = .stop d (s.setCur c) := by
  simp only [onCore, h]

/-- A core rule that reads the parameters and completes changes the executing core and nothing else. -/
theorem onCoreCfg_done {f : Config → CoreRule} {k : CoreId} {s : State} {c : CoreState}
    (h : f s.cfg k s.cur = .done c) : onCoreCfg f k s = .done (s.setCur c) :=
  onCore_done h

/-! ## Exceptions -/

/-- Where an exception entry leaves the program counter: the vector, aligned to ARM state. -/
theorem CoreState.enterException_r15 (c : CoreState) (k : CoreId) (vb : Word) (m : Mode) (o lr : Word) (f : Bool) :
    (c.enterException k vb m o lr f).regs.r15 = alignWord (vb + o) := by
  have h : psrT (c.enterException k vb m o lr f).cpsr = false := by
    cases m <;> cases f <;>
      simp [CoreState.enterException, CoreState.setCpsr, CoreState.setSpsrOf, CoreState.writePc, psrSetF, psrT, psrSetT]
  have h' : (c.enterException k vb m o lr f).regs.r15 =
      if psrT (c.enterException k vb m o lr f).cpsr then alignHalf (vb + o) else alignWord (vb + o) := by
    cases m <;> rfl
  rw [h', h]
  rfl

/-- The registers an exception entry writes: r14 of the new mode and r15. -/
theorem CoreState.enterException_get (c : CoreState) (k : CoreId) (vb : Word) (m : Mode) (o lr : Word) (f : Bool)
    (p : PhysReg) (h : p ≠ .r15) :
    (c.enterException k vb m o lr f).regs.get p = if p = phys .r14 m then lr else c.regs.get p := by
  cases m <;> cases p <;> first | rfl | exact absurd rfl h

/-- The old status is saved in the bank of a mode that has a saved-status register. -/
theorem CoreState.enterException_spsrOf (c : CoreState) (k : CoreId) (vb : Word) (m : Mode) (o lr : Word) (f : Bool)
    (h : m ≠ .usr) (h' : m ≠ .sys) : (c.enterException k vb m o lr f).spsrOf m = c.cpsr &&& psrMask k := by
  cases m <;> first | rfl | exact absurd rfl h | exact absurd rfl h'

/-- The status after an exception entry. -/
theorem CoreState.enterException_cpsr (c : CoreState) (k : CoreId) (vb : Word) (m : Mode) (o lr : Word) (f : Bool) :
    (c.enterException k vb m o lr f).cpsr =
      (let p := psrSetT (psrSetI (psrSetMode c.cpsr m) true) false
       if f then psrSetF p true else p) &&& psrMask k := by
  cases m <;> rfl

/-- An exception entry requests a flush. -/
@[simp] theorem CoreState.enterException_needsFlush (c : CoreState) (k : CoreId) (vb : Word) (m : Mode) (o lr : Word)
    (f : Bool) : (c.enterException k vb m o lr f).needsFlush = true := rfl

/-- An exception return either restores the status and goes to the target, or stops and changes nothing. -/
theorem CoreState.exceptionReturn_cases (c : CoreState) (k : CoreId) (a t : Word) :
    (psrLegal c.getSpsr = true ∧ c.exceptionReturn k a t = .done ((c.setCpsr k c.getSpsr).writePc t))
    ∨ (psrLegal c.getSpsr = false ∧ c.exceptionReturn k a t = .stop ⟨.illegalMode, c.getSpsr, a⟩ c) := by
  unfold CoreState.exceptionReturn
  cases h : psrLegal c.getSpsr <;> simp [h]

/-! ## Staging and commit -/

/-- Staging changes the executing slot and nothing else. -/
theorem CoreState.execSlot_stage (c : CoreState) (i : Reg) (p : PhysReg) (addr v : Word) :
    (c.stage i p addr v).execSlot =
      { c.execSlot with
        rmask := c.execSlot.rmask ||| (1#16 <<< regNumber i), raddr := c.execSlot.raddr.set i addr
        rval := c.execSlot.rval.set i v, rphys := c.execSlot.rphys.set i p } := by
  unfold CoreState.stage
  simp

/-- Recording an address leaves the bitmap alone. -/
@[simp] theorem CoreState.execSlot_recordAddr_rmask (c : CoreState) (i : Reg) (addr : Word) :
    (c.recordAddr i addr).execSlot.rmask = c.execSlot.rmask := by
  unfold CoreState.recordAddr
  simp

/-- The access stage leaves the bitmap alone. -/
@[simp] theorem CoreState.execSlot_accessMem_rmask (c : CoreState) :
    c.accessMem.execSlot.rmask = c.execSlot.rmask := by
  unfold CoreState.accessMem
  simp

/-- A register number is staged after `i` is staged if it is `i` or was staged. -/
theorem Slot.staged_or (sl : Slot) (i j : Reg) :
    Slot.staged { sl with rmask := sl.rmask ||| (1#16 <<< regNumber i) } j = (sl.staged j || decide (j = i)) := by
  cases i <;> cases j <;> simp [Slot.staged, regNumber]

/-- With nothing staged the commit loop changes no register. -/
theorem commitOne_of_not_staged {sl : Slot} {i : Reg} (f : RegFile) (h : sl.staged i = false) : commitOne sl f i = f := by
  simp [commitOne, h]

/-- An empty bitmap stages no register. -/
theorem Slot.staged_of_empty {sl : Slot} (h : sl.rmask = 0#16) (i : Reg) : sl.staged i = false := by
  simp [Slot.staged, h]

/-- The commit loop with an empty bitmap. -/
theorem foldl_commitOne_of_empty {sl : Slot} (h : sl.rmask = 0#16) (f : RegFile) :
    allRegs.foldl (commitOne sl) f = f := by
  have hl : ∀ (l : List Reg) (g : RegFile), l.foldl (commitOne sl) g = g := by
    intro l
    induction l with
    | nil => intro g; rfl
    | cons i rest ih =>
      intro g
      rw [List.foldl_cons, commitOne_of_not_staged g (Slot.staged_of_empty h i), ih]
  exact hl _ f

/-- The writeback stage when nothing is staged: the scratch lists are cleared and nothing else. -/
theorem CoreState.writeStaged_of_empty (c : CoreState) (k : CoreId) (w : PcCommit) (h : c.execSlot.rmask = 0#16) :
    c.writeStaged k w = .done c.clearStaged := by
  unfold CoreState.writeStaged
  simp only [Slot.staged_of_empty h, foldl_commitOne_of_empty h]
  rfl

/-- The writeback stage without a staged r15: the staged registers, and the bitmap cleared. -/
theorem CoreState.writeStaged_no_pc (c : CoreState) (k : CoreId) (w : PcCommit) (h : c.execSlot.staged .r15 = false) :
    c.writeStaged k w =
      .done (CoreState.clearStaged { c with regs := allRegs.foldl (commitOne c.execSlot) c.regs }) := by
  unfold CoreState.writeStaged
  simp [h]

/-- The writeback stage of a loaded r15. -/
theorem CoreState.writeStaged_load (c : CoreState) (k : CoreId) (h : c.execSlot.staged .r15 = true) :
    c.writeStaged k .load =
      .done (CoreState.loadPc { c with regs := allRegs.foldl (commitOne c.execSlot) c.regs } k
        (c.execSlot.rval.get .r15)).clearStaged := by
  unfold CoreState.writeStaged
  simp [h]

/-- The writeback stage of the machine when nothing is staged. -/
theorem State.writeStaged_of_empty (s : State) (k : CoreId) (w : PcCommit) (h : s.cur.execSlot.rmask = 0#16) :
    s.writeStaged k w = .done (s.onCur fun c => c.accessMem.clearStaged) := by
  unfold State.writeStaged
  rw [CoreState.writeStaged_of_empty _ _ _ (by simpa using h)]
  rfl

/-! ## The common frame of the instructions -/

/-- A recognized instruction runs its rule. -/
theorem runAlways_of_recognized {i : Instr} {w : PcCommit} {r : Rule} {s : State} (h : i.recognizedOn s.turn = true) :
    runAlways i w r s = .next (s.perform w r) := by
  simp [runAlways, h]

/-- An instruction its core does not recognize stops. -/
theorem runAlways_of_unrecognized {i : Instr} {w : PcCommit} {r : Rule} {s : State}
    (h : i.recognizedOn s.turn = false) : runAlways i w r s = .next s.stopUnrecognized := by
  simp [runAlways, h]

/-- An instruction whose condition passes. -/
theorem runCond_of_pass {i : Instr} {c : Cond} {w : PcCommit} {r : Rule} {s : State}
    (h : checkCondition c s.cur.cpsr = true) : runCond i c w r s = runAlways i w r s := by
  simp [runCond, h]

/-- An instruction whose condition fails is skipped. -/
theorem runCond_of_fail {i : Instr} {c : Cond} {w : PcCommit} {r : Rule} {s : State}
    (h : checkCondition c s.cur.cpsr = false) : runCond i c w r s = .next s.skip := by
  simp [runCond, h]

/-- A rule that stops: its state, with the record of the stop. -/
theorem State.perform_of_stop {s t : State} {w : PcCommit} {r : Rule} {d : Diag} (h : r s.turn s = .stop d t) :
    s.perform w r = t.stopWith d := by
  simp only [State.perform, h]

/-- A rule that completes with nothing staged: its state, the scratch lists cleared and the charge added. -/
theorem State.perform_of_done {s t : State} {w : PcCommit} {r : Rule} (h : r s.turn s = .done t)
    (he : t.cur.execSlot.rmask = 0#16) :
    ∃ n, s.perform w r = t.onCur fun c => c.accessMem.clearStaged.charge n := by
  simp only [State.perform, h]
  rw [State.writeStaged_of_empty t _ w he]
  refine ⟨s.cfg.tickCycles s.turn (.executed s.cur.execSlot.tag s.cur.execSlot.word s.cur.instrAddr
    (t.traffic.drop s.traffic.length)), ?_⟩
  simp

/-- Every way an instruction without a condition ends is a next state. -/
theorem runAlways_next (i : Instr) (w : PcCommit) (r : Rule) (s : State) : ∃ t, runAlways i w r s = .next t := by
  unfold runAlways
  split <;> exact ⟨_, rfl⟩

/-- Every way a conditional instruction ends is a next state. -/
theorem runCond_next (i : Instr) (c : Cond) (w : PcCommit) (r : Rule) (s : State) :
    ∃ t, runCond i c w r s = .next t := by
  unfold runCond
  split
  · exact runAlways_next i w r s
  · exact ⟨_, rfl⟩

/-- Every way an instruction of FAST without a condition ends is a next state. -/
theorem runFastUncond_next (i : Instr) (r : Rule) (s : State) : ∃ t, runFastUncond i r s = .next t := by
  unfold runFastUncond
  split
  · exact runAlways_next i .load r s
  · exact ⟨_, rfl⟩

/-! ## Services -/

/-- What SWI does in TRAP mode. -/
theorem swiRule_trap {n : BitVec 8} {k : CoreId} {s : State} (h : s.cfg.swiMode = .trap) :
    swiRule n k s =
      .done (s.setCur (s.cur.enterException k (s.cfg.vbase.get k) .svc 0x08#32 (s.cur.instrAddr + s.cur.width) false)) := by
  simp only [swiRule, h]
  rfl

/-- What SWI does in HLE mode. -/
theorem swiRule_hle {n : BitVec 8} {k : CoreId} {s : State} (h : s.cfg.swiMode = .hle) :
    swiRule n k s = hleSwi n k s := by
  simp only [swiRule, h]

/-- A BIOS action leaves the status register, the program counter and the flush request of the core alone. -/
theorem State.biosAct_frame (s : State) (a : BiosAction) :
    (s.biosAct a).turn = s.turn ∧ (s.biosAct a).cur.cpsr = s.cur.cpsr ∧ (s.biosAct a).cur.regs.r15 = s.cur.regs.r15
      ∧ (s.biosAct a).cur.needsFlush = s.cur.needsFlush := by
  cases a with
  | setReg i v =>
    simp only [State.biosAct]
    split
    · exact ⟨rfl, rfl, rfl, rfl⟩
    · rename_i h
      have hp : PhysReg.r15 ≠ phys i s.cur.mode := fun e => h (phys_eq_r15.mp e.symm)
      have h2 := RegFile.get_set_ne s.cur.regs v hp
      simp only [State.onCur_turn, State.onCur_cur]
      rw [CoreState.setReg_regs_of_ne _ _ h]
      exact ⟨trivial, rfl, h2, rfl⟩
  | read addr w => exact ⟨rfl, rfl, rfl, rfl⟩
  | write addr w v => exact ⟨rfl, rfl, rfl, rfl⟩

/-! ## Memory -/

/-- A load of a machine changes the record of accesses only. -/
theorem State.read_snd (s : State) (a : Word) (w : Width) :
    (s.read a w).2 = { s with traffic := s.traffic ++ [⟨s.busOwner, .read, w, a, memLoad s.mem a w⟩] } := rfl

/-- The loads of a block transfer leave memory and the registers alone. -/
theorem loadMany_frame (user : Bool) (l : List Reg) (addr : Word) (s : State) :
    (loadMany user l addr s).mem = s.mem ∧ (loadMany user l addr s).turn = s.turn
      ∧ (loadMany user l addr s).cur.regs = s.cur.regs ∧ (loadMany user l addr s).cur.cpsr = s.cur.cpsr := by
  induction l generalizing addr s with
  | nil => exact ⟨rfl, rfl, rfl, rfl⟩
  | cons i rest ih =>
    simp only [loadMany]
    have h := ih (addr + 4#32)
      ((s.read addr .word).2.onCur fun c =>
        c.stage i (phys i (if user then .usr else c.mode)) addr (s.read addr .word).1)
    refine ⟨h.1.trans rfl, h.2.1.trans rfl, h.2.2.1.trans ?_, h.2.2.2.trans ?_⟩ <;> simp

/-- The stores of a block transfer keep the canonical form of memory and leave the registers alone. -/
theorem storeMany_frame (value : Reg → Word) (l : List Reg) (addr : Word) (s : State) (h : Memory.wf s.mem = true) :
    Memory.wf (storeMany value l addr s).mem = true ∧ (storeMany value l addr s).turn = s.turn
      ∧ (storeMany value l addr s).cur.regs = s.cur.regs ∧ (storeMany value l addr s).cur.cpsr = s.cur.cpsr := by
  induction l generalizing addr s with
  | nil => exact ⟨h, rfl, rfl, rfl⟩
  | cons i rest ih =>
    simp only [storeMany]
    have hi := ih (addr + 4#32) ((s.write addr .word (value i)).onCur fun c => c.recordAddr i addr)
      (Memory.wf_memStore h addr .word (value i))
    refine ⟨hi.1, hi.2.1.trans rfl, hi.2.2.1.trans ?_, hi.2.2.2.trans ?_⟩ <;> simp

end Sys2Proof.Machine
end

