-- ==== Sys2Proof/Laws/Execute.lean ====
section
/-! SUPPORT. What `exec` answers, in the frame every meaning shares. -/

namespace Sys2Proof.Machine

/-- Every instruction answers a next state on every state. -/
theorem exec_next (i : Instr) (s : State) : ∃ t, exec i s = .next t := by
  cases i <;> first
    | exact runCond_next _ _ _ _ s
    | exact runAlways_next _ _ _ s
    | exact runFastUncond_next _ _ s

/-- Execute on a slot answers a next state. -/
theorem State.executeSlot_next (s : State) : ∃ t, s.executeSlot = .next t := by
  have hu : ∃ t, s.executeUnrecognized = .next t := by
    simp only [State.executeUnrecognized]
    split <;> exact ⟨_, rfl⟩
  simp only [State.executeSlot]
  split
  · split
    · exact exec_next _ s
    · exact hu
  · exact hu

/-- A pipeline cycle answers a next state. -/
theorem State.pipelineCycle_next (s : State) : ∃ t, s.pipelineCycle = .next t := by
  simp only [State.pipelineCycle]
  split
  · obtain ⟨t, ht⟩ := State.executeSlot_next s.frontEnd.recordDispatch
    rw [ht]
    exact ⟨_, rfl⟩
  · exact ⟨_, rfl⟩

end Sys2Proof.Machine
end

