-- ==== Sys2Proof/Laws/Views.lean ====
section
/-! SUPPORT. The operand 2, the effective address, the block range and the multiply flags that the statements give from the rules are the
ones the meanings compute. -/

namespace Sys2Proof

open Machine

/-- In ARM state a register reads as an ARM instruction reads it: r15 as A + 8. -/
theorem armReg_eq_reg {c : CoreState} (h : psrT c.cpsr = false) (i : Reg) : c.armReg i = c.reg i := by
  unfold CoreState.armReg CoreState.reg CoreState.instrAddr CoreState.width
  split
  · subst i
    simp only [h, phys_r15, RegFile.get_r15, Bool.false_eq_true, if_false]
    exact BitVec.sub_add_cancel _ 8#32
  · rfl

/-- The two ways to write a rotation to the right agree. -/
theorem rotated_eq_rotatedImm (rot : BitVec 4) (imm8 : BitVec 8) : rotated rot imm8 = rotatedImm rot imm8 := by
  have hrot : 2 * rot.toNat < 32 := by omega
  have himm : BitVec.ofNat 32 imm8.toNat = imm8.setWidth 32 := by
    apply BitVec.eq_of_toNat_eq
    simp
  rw [rotated, rotatedImm, himm, BitVec.rotateRight_def, Nat.mod_eq_of_lt hrot]

/-- An exact difference, as a 32-bit value. -/
theorem ofInt_sub (x y : Int) : BitVec.ofInt 32 (x - y) = BitVec.ofInt 32 x - BitVec.ofInt 32 y := by
  rw [Int.sub_eq_add_neg, BitVec.ofInt_add, BitVec.ofInt_neg, BitVec.sub_eq_add_neg]

/-- Operand 2 of the statements is the operand 2 of the meanings. -/
theorem sh_eq_operand2 {c : CoreState} (h : psrT c.cpsr = false) (o : Operand2) : c.sh o = c.operand2 o := by
  cases o with
  | imm rot imm8 => simp only [CoreState.sh, CoreState.operand2, rotated_eq_rotatedImm]
  | shiftImm amount ty rm => simp only [CoreState.sh, CoreState.immShift, CoreState.operand2, armReg_eq_reg h]; rfl
  | shiftReg rs ty rm =>
    simp only [CoreState.sh, CoreState.operand2, armReg_eq_reg h, shiftReg, BitVec.extractLsb'_toNat]
    rfl

/-- The effective address and the write-back of the statements are those of the meanings. -/
theorem effective_eq_addressing {c : CoreState} (h : psrT c.cpsr = false) (mode : IndexMode) (up : Bool) (rn : Reg)
    (off : Word) :
    c.effective mode up rn off =
      let a := c.addressing mode up rn off
      ⟨a.addr, if a.wb then some (rn, a.offaddr) else none⟩ := by
  have moved : BitVec.ofInt 32 (if up then ((c.reg rn).toNat : Int) + off.toNat else (c.reg rn).toNat - off.toNat) =
      if up then c.reg rn + off else c.reg rn - off := by
    cases up <;> simp [BitVec.ofInt_add, ofInt_sub]
  cases mode <;> simp only [CoreState.effective, CoreState.addressing, armReg_eq_reg h, moved] <;> rfl

/-- The registers of a list, as numbers. -/
theorem regsOf_map_regNumber (list : BitVec 16) :
    (regsOf list).map regNumber = (List.range 16).filter fun j => list.getLsbD j := by
  rw [show List.range 16 = allRegs.map regNumber by decide, List.filter_map]
  rfl

/-- The length of a register list is the number of its set bits. -/
theorem setBits_eq_listCount (list : BitVec 16) : setBits list 16 = listCount list := by
  rw [setBits, ← regsOf_map_regNumber, List.length_map, listCount]

/-- The row of a block mode gives the aligned start and the write-back value of the meanings. -/
theorem blockRow_eq (bm : BlockMode) (b : Word) (list : BitVec 16) :
    BitVec.ofInt 32 (blockRow bm b.toNat (setBits list 16)).1 &&& ~~~3#32 = alignWord (blockStart bm b (listSpan list))
    ∧ BitVec.ofInt 32 (blockRow bm b.toNat (setBits list 16)).2 = blockWriteBack bm b (listSpan list) := by
  rw [setBits_eq_listCount]
  have span : BitVec.ofInt 32 (4 * (listCount list : Int)) = listSpan list := by
    rw [listSpan, ← BitVec.ofInt_natCast]
    norm_num
  cases bm <;>
    simp [blockRow, blockStart, blockWriteBack, BitVec.ofInt_add, ofInt_sub, span, alignWord]

/-- Setting C to what it is changes nothing. -/
theorem psrSetC_self (w : Word) (n z : Bool) : psrSetC (psrSetNZ w n z) (psrC w) = psrSetNZ w n z := by
  apply BitVec.eq_of_getLsbD_eq
  intro j hj
  simp only [psrSetC, psrSetNZ, psrC, getLsbD_putBit]
  by_cases h : j = 29 <;> simp [h]

/-- N, Z and V after a multiply, whatever MUL_C_POLICY is. -/
theorem mulPsr_nzv (cfg : Config) (k : CoreId) (c : CoreState) (n z : Bool) :
    psrN (Machine.mulPsr cfg k c n z) = n ∧ psrZ (Machine.mulPsr cfg k c n z) = z
      ∧ psrV (Machine.mulPsr cfg k c n z) = psrV c.cpsr := by
  simp [Machine.mulPsr, psrN, psrZ, psrV, psrSetC, psrSetNZ]

/-- The status word of the statements after a multiply is the one the meanings store. -/
theorem mulPsr_eq (s : State) (n z : Bool) :
    s.mulPsr n z = Machine.mulPsr s.cfg s.turn s.cur n z &&& psrMask s.turn := by
  unfold State.mulPsr Machine.mulPsr mulCarry
  cases s.cfg.mulCPolicy with
  | unchanged => simp only [psrSetC_self]
  | meaningless => rfl

end Sys2Proof
end

