-- ==== Sys2Proof/Tests/Slice0.lean ====
section
/-! SUPPORT. Tests: ill-formed terms that WellFormed refuses, words written out from the encoding tables, single steps
whose expected values are the spec's (95_test_vectors.md), and for every statement with hypotheses concrete states and
operands that meet them. -/

namespace Sys2Proof.Tests

open Sys2Proof Sys2Proof.Machine

/-! ## Ill-formed terms -/

theorem test_ill_core_clz : (Instr.clz .al .r0 .r1).wf .slow = false := by decide
theorem test_ill_core_thumb_blx : (Instr.tBlxSuffix 0#10).wf .slow = false := by decide
theorem test_ill_cond_b_nv : (Instr.b .nv 0#24).wf .fast = false ∧ (Instr.b .nv 0#24).wf .slow = false := by decide
theorem test_ill_cond_bl_nv : (Instr.bl .nv 0#24).wf .fast = false ∧ (Instr.bl .nv 0#24).wf .slow = false := by decide
theorem test_ill_cond_thumb_al : (Instr.tBCond .al 0#8).wf .fast = false := by decide
theorem test_ill_cond_thumb_nv : (Instr.tBCond .nv 0#8).wf .slow = false := by decide
theorem test_ill_shift_by_pc : (Instr.addShiftReg .al false .r0 .r1 .r15 .lsl .r2).wf .fast = false := by decide
theorem test_ill_move_shift_pc : (Instr.movShiftReg .al false .r15 .r1 .lsl .r2).wf .fast = false := by decide
theorem test_ill_mrs_pc : (Instr.mrs .al false .r15).wf .fast = false := by decide
theorem test_ill_msr_pc : (Instr.msrReg .al false 9#4 .r15).wf .fast = false := by decide
theorem test_ill_mul_pc : (Instr.mul .al false .r0 .r15 .r1).wf .fast = false := by decide
theorem test_ill_umull_same : (Instr.umull .al false .r3 .r3 .r1 .r2).wf .fast = false := by decide
theorem test_ill_qadd_pc : (Instr.qadd .al .r1 .r15 .r2).wf .fast = false := by decide
theorem test_ill_ldr_writeback_pc : (Instr.ldrImm .al .pre true .r15 .r0 4#12).wf .fast = false := by decide
theorem test_ill_ldr_offset_pc : (Instr.ldrReg .al .offset true .r1 .r0 0#5 .lsl .r15).wf .fast = false := by decide
theorem test_ill_ldrb_pc : (Instr.ldrbImm .al .offset true .r1 .r15 0#12).wf .fast = false := by decide
theorem test_ill_ldrh_pc : (Instr.ldrh .al .offset true .r1 .r15 (.imm 0#8)).wf .fast = false := by decide
theorem test_ill_ldrd_odd : (Instr.ldrd .al .offset true .r1 .r3 (.imm 0#8)).wf .fast = false := by decide
theorem test_ill_ldrd_base : (Instr.ldrd .al .pre true .r3 .r2 (.imm 0#8)).wf .fast = false := by decide
theorem test_ill_strd_r14 : (Instr.strd .al .offset true .r1 .r14 (.imm 0#8)).wf .fast = false := by decide
theorem test_ill_ldm_empty : (Instr.ldm .al .ia false false .r1 0#16).wf .fast = false := by decide
theorem test_ill_ldm_base_in_list : (Instr.ldm .al .ia false true .r1 2#16).wf .fast = false := by decide
theorem test_ill_ldm_user_writeback : (Instr.ldm .al .ia true true .r1 4#16).wf .fast = false := by decide
theorem test_ill_stm_user_writeback : (Instr.stm .al .ia true true .r1 4#16).wf .fast = false := by decide
theorem test_ill_stm_base_not_lowest : (Instr.stm .al .ia false true .r1 3#16).wf .fast = false := by decide
theorem test_wf_stm_base_lowest : (Instr.stm .al .ia false true .r1 6#16).wf .fast = true := by decide
theorem test_ill_swp_base : (Instr.swp .al .r1 .r0 .r1).wf .fast = false := by decide
theorem test_ill_blx_pc : (Instr.blxReg .al .r15).wf .fast = false := by decide
theorem test_ill_mcr_pc : (Instr.mcr .al 0#3 1#4 .r15 0#3 0#4).wf .fast = false := by decide
theorem test_ill_add_hi_low : (Instr.tAddHi .r1 .r2).wf .fast = false := by decide
theorem test_ill_cmp_hi_pc : (Instr.tCmpHi .r15 .r2).wf .fast = false := by decide
theorem test_ill_thumb_blx_pc : (Instr.tBlxReg .r15).wf .fast = false := by decide
theorem test_ill_push_empty : (Instr.tPush false 0#8).wf .fast = false := by decide
theorem test_ill_pop_empty : (Instr.tPop false 0#8).wf .fast = false := by decide
theorem test_ill_stmia_base_not_lowest : (Instr.tStmia .r1 3#8).wf .fast = false := by decide
theorem test_ill_ldmia_base_in_list : (Instr.tLdmia .r1 2#8).wf .fast = false := by decide

/-! ## Helpers -/

/-- Whether a word of the tables decodes on FAST to its instruction, that instruction is well-formed, and the encoder
gives the word back. -/
def agrees (p : Nat × Instr) : Bool :=
  let w : Word := BitVec.ofNat 32 p.1
  p.2.wf .fast && encode p.2 == w &&
    match decodeWord .fast p.2.isThumb w with
    | .ok j => decide (j = p.2)
    | .error _ => false

/-- Whether a word decodes to nothing on a core. -/
def rejects (k : CoreId) (thumb : Bool) (w : Word) : Bool :=
  match decodeWord k thumb w with
  | .ok _ => false
  | .error _ => true

/-- A machine about to execute the instruction at `a` on core `k`, with some registers and words of memory. -/
def start (k : CoreId) (swi : SwiMode) (a cpsr : Word) (regs : List (PhysReg × Word)) (mem : List (Word × Word)) : State :=
  let s := State.resetWith { Config.default with swiMode := swi }
  let s1 := { s with myTurn := ⟨decide (k = CoreId.fast), decide (k = CoreId.slow)⟩, busOwner := k }
  { s1.onCur fun c =>
      { c with cpsr := cpsr, regs := { regs.foldl (fun (f : RegFile) (r : PhysReg × Word) => f.set r.1 r.2) c.regs with r15 := a } } with
    mem := mem.foldl (fun m (x : Word × Word) => memStore m x.1 .word x.2) [] }

/-- Whether a step of the instruction word leaves these registers, this status register and this memory, and a core
that passes the test. -/
def ends (s : State) (nbits w : Nat) (regs : List (PhysReg × Word)) (cpsr : Word) (mem : List (Word × Width × Word))
    (also : CoreState → Bool) : Bool :=
  let s0 := s.withFetchWord nbits w
  match step s0 with
  | .next t =>
    let c := t.cores.get s.turn
    regs.all (fun r => c.regs.get r.1 == r.2) && c.cpsr == cpsr && also c
      && t.mem == mem.foldl (fun m x => memStore m x.1 x.2.1 x.2.2) s0.mem
  | _ => false


/-! ## Decoding and encoding -/

/-- Words of the encoding tables, bit by bit, and the instructions they stand for (30_encoding.md R88, R93). -/
def aluWords1 : List (Nat × Instr) := [
  (0b0001_0000_0001_0101_0010_1001_1000_1100, .andShiftImm .ne true .r5 .r2 0x13#5 .lsl .r12),
  (0b0011_0000_0001_0101_0010_0111_0011_1100, .andShiftReg .cc true .r5 .r2 .r7 .lsr .r12),
  (0b0101_0010_0000_0101_0010_1001_1010_0110, .andImm .pl false .r5 .r2 0x9#4 0xA6#8),
  (0b0111_0000_0010_0101_0010_1001_1110_1100, .eorShiftImm .vc false .r5 .r2 0x13#5 .ror .r12),
  (0b1010_0000_0011_0101_0010_0111_0001_1100, .eorShiftReg .ge true .r5 .r2 .r7 .lsl .r12),
  (0b1100_0010_0011_0101_0010_1001_1010_0110, .eorImm .gt true .r5 .r2 0x9#4 0xA6#8),
  (0b1110_0000_0100_0101_0010_1001_1100_1100, .subShiftImm .al false .r5 .r2 0x13#5 .asr .r12),
  (0b0001_0000_0100_0101_0010_0111_0111_1100, .subShiftReg .ne false .r5 .r2 .r7 .ror .r12),
  (0b0011_0010_0101_0101_0010_1001_1010_0110, .subImm .cc true .r5 .r2 0x9#4 0xA6#8),
  (0b0101_0000_0111_0101_0010_1001_1010_1100, .rsbShiftImm .pl true .r5 .r2 0x13#5 .lsr .r12),
  (0b0111_0000_0110_0101_0010_0111_0101_1100, .rsbShiftReg .vc false .r5 .r2 .r7 .asr .r12),
  (0b1010_0010_0110_0101_0010_1001_1010_0110, .rsbImm .ge false .r5 .r2 0x9#4 0xA6#8),
  (0b1100_0000_1001_0101_0010_1001_1000_1100, .addShiftImm .gt true .r5 .r2 0x13#5 .lsl .r12),
  (0b1110_0000_1001_0101_0010_0111_0011_1100, .addShiftReg .al true .r5 .r2 .r7 .lsr .r12),
  (0b0001_0010_1000_0101_0010_1001_1010_0110, .addImm .ne false .r5 .r2 0x9#4 0xA6#8),
  (0b0011_0000_1010_0101_0010_1001_1110_1100, .adcShiftImm .cc false .r5 .r2 0x13#5 .ror .r12),
  (0b0101_0000_1011_0101_0010_0111_0001_1100, .adcShiftReg .pl true .r5 .r2 .r7 .lsl .r12),
  (0b0111_0010_1011_0101_0010_1001_1010_0110, .adcImm .vc true .r5 .r2 0x9#4 0xA6#8),
  (0b1010_0000_1100_0101_0010_1001_1100_1100, .sbcShiftImm .ge false .r5 .r2 0x13#5 .asr .r12),
  (0b1100_0000_1100_0101_0010_0111_0111_1100, .sbcShiftReg .gt false .r5 .r2 .r7 .ror .r12),
  (0b1110_0010_1101_0101_0010_1001_1010_0110, .sbcImm .al true .r5 .r2 0x9#4 0xA6#8),
  (0b0001_0000_1111_0101_0010_1001_1010_1100, .rscShiftImm .ne true .r5 .r2 0x13#5 .lsr .r12),
  (0b0011_0000_1110_0101_0010_0111_0101_1100, .rscShiftReg .cc false .r5 .r2 .r7 .asr .r12),
  (0b0101_0010_1110_0101_0010_1001_1010_0110, .rscImm .pl false .r5 .r2 0x9#4 0xA6#8)]

/-- Words of the encoding tables, bit by bit, and the instructions they stand for (30_encoding.md R88, R93). -/
def aluWords2 : List (Nat × Instr) := [
  (0b0011_0001_1001_0101_0010_1001_1000_1100, .orrShiftImm .cc true .r5 .r2 0x13#5 .lsl .r12),
  (0b0101_0001_1001_0101_0010_0111_0011_1100, .orrShiftReg .pl true .r5 .r2 .r7 .lsr .r12),
  (0b0111_0011_1000_0101_0010_1001_1010_0110, .orrImm .vc false .r5 .r2 0x9#4 0xA6#8),
  (0b1010_0001_1010_0000_0010_1001_1110_1100, .movShiftImm .ge false .r2 0x13#5 .ror .r12),
  (0b1100_0001_1011_0000_0010_0111_0001_1100, .movShiftReg .gt true .r2 .r7 .lsl .r12),
  (0b1110_0011_1011_0000_0010_1001_1010_0110, .movImm .al true .r2 0x9#4 0xA6#8),
  (0b0001_0001_1100_0101_0010_1001_1100_1100, .bicShiftImm .ne false .r5 .r2 0x13#5 .asr .r12),
  (0b0011_0001_1100_0101_0010_0111_0111_1100, .bicShiftReg .cc false .r5 .r2 .r7 .ror .r12),
  (0b0101_0011_1101_0101_0010_1001_1010_0110, .bicImm .pl true .r5 .r2 0x9#4 0xA6#8),
  (0b0111_0001_1111_0000_0010_1001_1010_1100, .mvnShiftImm .vc true .r2 0x13#5 .lsr .r12),
  (0b1010_0001_1110_0000_0010_0111_0101_1100, .mvnShiftReg .ge false .r2 .r7 .asr .r12),
  (0b1100_0011_1110_0000_0010_1001_1010_0110, .mvnImm .gt false .r2 0x9#4 0xA6#8),
  (0b0000_0100_1111_1010, .tLslImm 0x13#5 .r7 .r2),
  (0b0000_1100_1111_1010, .tLsrImm 0x13#5 .r7 .r2),
  (0b0001_0100_1111_1010, .tAsrImm 0x13#5 .r7 .r2),
  (0b0001_1001_0111_1010, .tAddReg .r5 .r7 .r2),
  (0b0001_1011_0111_1010, .tSubReg .r5 .r7 .r2),
  (0b0001_1101_0111_1010, .tAddImm3 0x5#3 .r7 .r2),
  (0b0001_1111_0111_1010, .tSubImm3 0x5#3 .r7 .r2),
  (0b0010_0010_1010_0110, .tMovImm8 .r2 0xA6#8),
  (0b0011_0010_1010_0110, .tAddImm8 .r2 0xA6#8),
  (0b0011_1010_1010_0110, .tSubImm8 .r2 0xA6#8),
  (0b0100_0000_0011_1010, .tAndAlu .r7 .r2),
  (0b0100_0000_0111_1010, .tEorAlu .r7 .r2)]

/-- Words of the encoding tables, bit by bit, and the instructions they stand for (30_encoding.md R88, R93). -/
def aluWords3 : List (Nat × Instr) := [
  (0b0100_0000_1011_1010, .tLslAlu .r7 .r2),
  (0b0100_0000_1111_1010, .tLsrAlu .r7 .r2),
  (0b0100_0001_0011_1010, .tAsrAlu .r7 .r2),
  (0b0100_0001_0111_1010, .tAdcAlu .r7 .r2),
  (0b0100_0001_1011_1010, .tSbcAlu .r7 .r2),
  (0b0100_0001_1111_1010, .tRorAlu .r7 .r2),
  (0b0100_0010_0111_1010, .tNegAlu .r7 .r2),
  (0b0100_0011_0011_1010, .tOrrAlu .r7 .r2),
  (0b0100_0011_1011_1010, .tBicAlu .r7 .r2),
  (0b0100_0011_1111_1010, .tMvnAlu .r7 .r2)]

/-- All of these words. -/
def aluWords : List (Nat × Instr) := aluWords1 ++ aluWords2 ++ aluWords3

theorem test_decode_alu_words1 : (aluWords1.all agrees) = true := by decide

theorem test_decode_alu_words2 : (aluWords2.all agrees) = true := by decide

theorem test_decode_alu_words3 : (aluWords3.all agrees) = true := by decide

/-- Words of the encoding tables, bit by bit, and the instructions they stand for (30_encoding.md R88, R93). -/
def compareWords : List (Nat × Instr) := [
  (0b0111_0001_0001_0101_0000_1001_1000_1100, .tstShiftImm .vc .r5 0x13#5 .lsl .r12),
  (0b1010_0001_0001_0101_0000_0111_0011_1100, .tstShiftReg .ge .r5 .r7 .lsr .r12),
  (0b1100_0011_0001_0101_0000_1001_1010_0110, .tstImm .gt .r5 0x9#4 0xA6#8),
  (0b1110_0001_0011_0101_0000_1001_1110_1100, .teqShiftImm .al .r5 0x13#5 .ror .r12),
  (0b0001_0001_0011_0101_0000_0111_0001_1100, .teqShiftReg .ne .r5 .r7 .lsl .r12),
  (0b0011_0011_0011_0101_0000_1001_1010_0110, .teqImm .cc .r5 0x9#4 0xA6#8),
  (0b0101_0001_0101_0101_0000_1001_1100_1100, .cmpShiftImm .pl .r5 0x13#5 .asr .r12),
  (0b0111_0001_0101_0101_0000_0111_0111_1100, .cmpShiftReg .vc .r5 .r7 .ror .r12),
  (0b1010_0011_0101_0101_0000_1001_1010_0110, .cmpImm .ge .r5 0x9#4 0xA6#8),
  (0b1100_0001_0111_0101_0000_1001_1010_1100, .cmnShiftImm .gt .r5 0x13#5 .lsr .r12),
  (0b1110_0001_0111_0101_0000_0111_0101_1100, .cmnShiftReg .al .r5 .r7 .asr .r12),
  (0b0001_0011_0111_0101_0000_1001_1010_0110, .cmnImm .ne .r5 0x9#4 0xA6#8),
  (0b0010_1010_1010_0110, .tCmpImm8 .r2 0xA6#8),
  (0b0100_0010_0011_1010, .tTstAlu .r7 .r2),
  (0b0100_0010_1011_1010, .tCmpAlu .r7 .r2),
  (0b0100_0010_1111_1010, .tCmnAlu .r7 .r2),
  (0b0100_0101_1110_0001, .tCmpHi .r9 .r12)]

theorem test_decode_compare_words : (compareWords.all agrees) = true := by decide

/-- Words of the encoding tables, bit by bit, and the instructions they stand for (30_encoding.md R88, R93). -/
def plainWords : List (Nat × Instr) := [
  (0b1110_0001_0100_1111_0010_0000_0000_0000, .mrs .al true .r2),
  (0b0011_0001_0110_1111_0010_1111_0001_1100, .clz .cc .r2 .r12),
  (0b0011_0001_0010_0010_0000_0111_1110_1100, .smulwY .cc true .r2 .r7 .r12),
  (0b0111_0001_0110_0010_0000_0111_1100_1100, .smulXY .vc false true .r2 .r7 .r12),
  (0b0100_0100_0110_0010, .tAddHi .r2 .r12),
  (0b0100_0110_0110_0010, .tMovHi .r2 .r12),
  (0b1010_0010_1010_0110, .tAddPc .r2 0xA6#8),
  (0b1010_1010_1010_0110, .tAddSp .r2 0xA6#8),
  (0b1011_0000_0101_1010, .tIncSp 0x5A#7),
  (0b1011_0000_1101_1010, .tDecSp 0x5A#7),
  (0b1111_0100_1101_0011, .tBlPrefix 0x4D3#11)]

theorem test_decode_plain_words : (plainWords.all agrees) = true := by decide

/-- Words of the encoding tables, bit by bit, and the instructions they stand for (30_encoding.md R88, R93). -/
def msrWords : List (Nat × Instr) := [
  (0b0001_0001_0110_1001_1111_0000_0000_1100, .msrReg .ne true 0x9#4 .r12),
  (0b0011_0011_0010_1000_1111_1001_1010_0110, .msrImm .cc false 0x8#4 0x9#4 0xA6#8)]

theorem test_decode_msr_words : (msrWords.all agrees) = true := by decide

/-- Words of the encoding tables, bit by bit, and the instructions they stand for (30_encoding.md R88, R93). -/
def mulWords : List (Nat × Instr) := [
  (0b0101_0000_0000_0010_0000_0111_1001_1100, .mul .pl false .r2 .r7 .r12),
  (0b0111_0000_0011_0010_0101_0111_1001_1100, .mla .vc true .r2 .r5 .r7 .r12),
  (0b0100_0011_0111_1010, .tMulAlu .r7 .r2)]

theorem test_decode_mul_words : (mulWords.all agrees) = true := by decide

/-- Words of the encoding tables, bit by bit, and the instructions they stand for (30_encoding.md R88, R93). -/
def mullWords : List (Nat × Instr) := [
  (0b1010_0000_1001_0110_0011_0111_1001_1100, .umull .ge true .r6 .r3 .r7 .r12),
  (0b1100_0000_1010_0110_0011_0111_1001_1100, .umlal .gt false .r6 .r3 .r7 .r12),
  (0b1110_0000_1100_0110_0011_0111_1001_1100, .smull .al false .r6 .r3 .r7 .r12),
  (0b0001_0000_1111_0110_0011_0111_1001_1100, .smlal .ne true .r6 .r3 .r7 .r12),
  (0b0101_0001_0100_0110_0011_0111_1010_1100, .smlalXY .pl true false .r6 .r3 .r7 .r12)]

theorem test_decode_mull_words : (mullWords.all agrees) = true := by decide

/-- Words of the encoding tables, bit by bit, and the instructions they stand for (30_encoding.md R88, R93). -/
def stickyWords : List (Nat × Instr) := [
  (0b0101_0001_0000_0101_0010_0000_0101_1100, .qadd .pl .r5 .r2 .r12),
  (0b0111_0001_0010_0101_0010_0000_0101_1100, .qsub .vc .r5 .r2 .r12),
  (0b1010_0001_0100_0101_0010_0000_0101_1100, .qdadd .ge .r5 .r2 .r12),
  (0b1100_0001_0110_0101_0010_0000_0101_1100, .qdsub .gt .r5 .r2 .r12),
  (0b1110_0001_0000_0010_0101_0111_1100_1100, .smlaXY .al false true .r2 .r5 .r7 .r12),
  (0b0001_0001_0010_0010_0101_0111_1000_1100, .smlawY .ne false .r2 .r5 .r7 .r12)]

theorem test_decode_sticky_words : (stickyWords.all agrees) = true := by decide

/-- Words of the encoding tables, bit by bit, and the instructions they stand for (30_encoding.md R88, R93). -/
def loadWords : List (Nat × Instr) := [
  (0b1010_0101_1011_0101_0010_1010_0101_1100, .ldrImm .ge .pre true .r5 .r2 0xA5C#12),
  (0b1100_0110_0001_0101_0010_1001_1000_1100, .ldrReg .gt .post false .r5 .r2 0x13#5 .lsl .r12),
  (0b0011_0100_1101_0101_0010_1010_0101_1100, .ldrbImm .cc .post true .r5 .r2 0xA5C#12),
  (0b0101_0111_0101_0101_0010_1001_1000_1100, .ldrbReg .pl .offset false .r5 .r2 0x13#5 .lsl .r12),
  (0b1100_0100_0011_0101_0010_1010_0101_1100, .ldrtImm .gt false .r5 .r2 0xA5C#12),
  (0b1110_0110_1011_0101_0010_1001_1000_1100, .ldrtReg .al true .r5 .r2 0x13#5 .lsl .r12),
  (0b0101_0100_0111_0101_0010_1010_0101_1100, .ldrbtImm .pl false .r5 .r2 0xA5C#12),
  (0b0111_0110_1111_0101_0010_1001_1000_1100, .ldrbtReg .vc true .r5 .r2 0x13#5 .lsl .r12),
  (0b1110_0000_1001_0101_0010_0000_1011_1100, .ldrh .al .post true .r5 .r2 (.reg .r12)),
  (0b0011_0001_0111_0101_0010_1010_1101_0110, .ldrsb .cc .pre false .r5 .r2 (.imm 0xA6#8)),
  (0b0101_0000_1001_0101_0010_0000_1111_1100, .ldrsh .pl .post true .r5 .r2 (.reg .r12)),
  (0b0100_1010_1010_0110, .tLdrPc .r2 0xA6#8),
  (0b0101_1001_1000_1010, .tLdrReg .r6 .r1 .r2),
  (0b0101_1101_1000_1010, .tLdrbReg .r6 .r1 .r2),
  (0b0101_0111_1000_1010, .tLdrsbReg .r6 .r1 .r2),
  (0b0101_1011_1000_1010, .tLdrhReg .r6 .r1 .r2),
  (0b0101_1111_1000_1010, .tLdrshReg .r6 .r1 .r2),
  (0b0110_1100_1100_1010, .tLdrImm 0x13#5 .r1 .r2),
  (0b0111_1100_1100_1010, .tLdrbImm 0x13#5 .r1 .r2),
  (0b1000_1100_1100_1010, .tLdrhImm 0x13#5 .r1 .r2),
  (0b1001_1010_1010_0110, .tLdrSp .r2 0xA6#8)]

theorem test_decode_load_words : (loadWords.all agrees) = true := by decide

/-- Words of the encoding tables, bit by bit, and the instructions they stand for (30_encoding.md R88, R93). -/
def storeWords : List (Nat × Instr) := [
  (0b1110_0101_0000_0101_0010_1010_0101_1100, .strImm .al .offset false .r5 .r2 0xA5C#12),
  (0b0001_0111_1010_0101_0010_1001_1100_1100, .strReg .ne .pre true .r5 .r2 0x13#5 .asr .r12),
  (0b0111_0101_0110_0101_0010_1010_0101_1100, .strbImm .vc .pre false .r5 .r2 0xA5C#12),
  (0b1010_0110_1100_0101_0010_1001_1100_1100, .strbReg .ge .post true .r5 .r2 0x13#5 .asr .r12),
  (0b0001_0100_1010_0101_0010_1010_0101_1100, .strtImm .ne true .r5 .r2 0xA5C#12),
  (0b0011_0110_0010_0101_0010_1001_1100_1100, .strtReg .cc false .r5 .r2 0x13#5 .asr .r12),
  (0b1010_0100_1110_0101_0010_1010_0101_1100, .strbtImm .ge true .r5 .r2 0xA5C#12),
  (0b1100_0110_0110_0101_0010_1001_1100_1100, .strbtReg .gt false .r5 .r2 0x13#5 .asr .r12),
  (0b0001_0001_0100_0101_0010_1010_1011_0110, .strh .ne .offset false .r5 .r2 (.imm 0xA6#8)),
  (0b0101_0001_1000_1010, .tStrReg .r6 .r1 .r2),
  (0b0101_0101_1000_1010, .tStrbReg .r6 .r1 .r2),
  (0b0101_0011_1000_1010, .tStrhReg .r6 .r1 .r2),
  (0b0110_0100_1100_1010, .tStrImm 0x13#5 .r1 .r2),
  (0b0111_0100_1100_1010, .tStrbImm 0x13#5 .r1 .r2),
  (0b1000_0100_1100_1010, .tStrhImm 0x13#5 .r1 .r2),
  (0b1001_0010_1010_0110, .tStrSp .r2 0xA6#8)]

theorem test_decode_store_words : (storeWords.all agrees) = true := by decide

/-- Words of the encoding tables, bit by bit, and the instructions they stand for (30_encoding.md R88, R93). -/
def doubleWords : List (Nat × Instr) := [
  (0b0111_0001_1100_0101_1000_1010_1101_0110, .ldrd .vc .offset true .r5 .r8 (.imm 0xA6#8)),
  (0b1010_0001_0010_0101_1000_0000_1111_1100, .strd .ge .pre false .r5 .r8 (.reg .r12))]

theorem test_decode_double_words : (doubleWords.all agrees) = true := by decide

/-- Words of the encoding tables, bit by bit, and the instructions they stand for (30_encoding.md R88, R93). -/
def swapWords : List (Nat × Instr) := [
  (0b0001_0001_0000_0101_0010_0000_1001_1100, .swp .ne .r5 .r2 .r12),
  (0b0011_0001_0100_0101_0010_0000_1001_1100, .swpb .cc .r5 .r2 .r12)]

theorem test_decode_swap_words : (swapWords.all agrees) = true := by decide

/-- Words of the encoding tables, bit by bit, and the instructions they stand for (30_encoding.md R88, R93). -/
def blockLoadWords : List (Nat × Instr) := [
  (0b1100_1001_1011_0101_0000_1011_0101_0100, .ldm .gt .ib false true .r5 0xB54#16),
  (0b1011_1100_1010_0110, .tPop false 0xA6#8),
  (0b1100_1001_1010_0100, .tLdmia .r1 0xA4#8)]

theorem test_decode_block_load_words : (blockLoadWords.all agrees) = true := by decide

/-- Words of the encoding tables, bit by bit, and the instructions they stand for (30_encoding.md R88, R93). -/
def blockStoreWords : List (Nat × Instr) := [
  (0b1110_1000_0010_0101_0000_1011_0101_0100, .stm .al .da false true .r5 0xB54#16),
  (0b1011_0100_1010_0110, .tPush false 0xA6#8),
  (0b1100_0001_1010_0100, .tStmia .r1 0xA4#8)]

theorem test_decode_block_store_words : (blockStoreWords.all agrees) = true := by decide

/-- Words of the encoding tables, bit by bit, and the instructions they stand for (30_encoding.md R88, R93). -/
def branchWords : List (Nat × Instr) := [
  (0b0111_1010_0000_0110_1010_1011_1100_1101, .b .vc 0x6ABCD#24),
  (0b1010_1011_1111_0010_1100_1101_1110_1001, .bl .ge 0xF2CDE9#24),
  (0b1100_0001_0010_1111_1111_1111_0001_1100, .bx .gt .r12),
  (0b1111_1011_1111_0010_1100_1101_1110_1001, .blxImm true 0xF2CDE9#24),
  (0b0001_0001_0010_1111_1111_1111_0011_1100, .blxReg .ne .r12),
  (0b0100_0111_0110_0000, .tBx .r12),
  (0b0100_0111_1110_0000, .tBlxReg .r12),
  (0b1101_1100_1010_0110, .tBCond .gt 0xA6#8),
  (0b1110_0100_1101_0011, .tB 0x4D3#11),
  (0b1111_1100_1101_0011, .tBlSuffix 0x4D3#11),
  (0b1110_1101_1000_1010, .tBlxSuffix 0x2C5#10)]

theorem test_decode_branch_words : (branchWords.all agrees) = true := by decide

/-- Words of the encoding tables, bit by bit, and the instructions they stand for (30_encoding.md R88, R93). -/
def idleWords : List (Nat × Instr) := [
  (0b1111_0101_1101_0101_1111_1010_0101_1100, .pld false true .r5 0xA5C#12)]

theorem test_decode_idle_words : (idleWords.all agrees) = true := by decide

/-- Words of the encoding tables, bit by bit, and the instructions they stand for (30_encoding.md R88, R93). -/
def swiWords : List (Nat × Instr) := [
  (0b0011_1111_0000_0110_1010_1011_1100_1101, .swi .cc 0x6ABCD#24),
  (0b1101_1111_0000_0110, .tSwi 0x6#8)]

theorem test_decode_swi_words : (swiWords.all agrees) = true := by decide

/-- Words of the encoding tables, bit by bit, and the instructions they stand for (30_encoding.md R88, R93). -/
def bkptWords : List (Nat × Instr) := [
  (0b1110_0001_0010_0000_1011_0101_0111_0100, .bkpt 0xB54#16)]

theorem test_decode_bkpt_words : (bkptWords.all agrees) = true := by decide

/-- Words of the encoding tables, bit by bit, and the instructions they stand for (30_encoding.md R88, R93). -/
def cp15Words : List (Nat × Instr) := [
  (0b0111_1110_1010_1001_0010_1111_0111_0110, .mcr .vc 0x5#3 0x9#4 .r2 0x3#3 0x6#4),
  (0b1010_1110_1011_1001_0010_1111_0111_0110, .mrc .ge 0x5#3 0x9#4 .r2 0x3#3 0x6#4)]

theorem test_decode_cp15_words : (cp15Words.all agrees) = true := by decide

/-! ## One step: the spec's own vectors -/

/-- ADDS r0, r1, r2: 1 + 2 (95_test_vectors.md). -/
theorem test_adds_r0_r1_r2_1_2 :
    ends (start .fast .hle 0x1000#32 0x1F#32 [(.r1, 0x1#32), (.r2, 0x2#32)] []) 32 0xE0910002
      [(.r0, 0x3#32), (.r15, 0x100C#32)] 0x1F#32 [] (fun _ => true) = true := by decide

/-- ADDS r0, r1, r2 (both) (95_test_vectors.md). -/
theorem test_adds_r0_r1_r2_both :
    ends (start .fast .hle 0x1000#32 0x1F#32 [(.r1, 0x80000000#32), (.r2, 0x80000000#32)] []) 32 0xE0910002
      [(.r0, 0x0#32), (.r15, 0x100C#32)] 0x7000001F#32 [] (fun _ => true) = true := by decide

/-- SUBS r0, r1, r2: 5 - 5 (95_test_vectors.md). -/
theorem test_subs_r0_r1_r2_5_5 :
    ends (start .fast .hle 0x1000#32 0x1F#32 [(.r1, 0x5#32), (.r2, 0x5#32)] []) 32 0xE0510002
      [(.r0, 0x0#32), (.r15, 0x100C#32)] 0x6000001F#32 [] (fun _ => true) = true := by decide

/-- SUBS pc, r14, #4 (IRQ return to Thumb) (95_test_vectors.md). -/
theorem test_subs_pc_r14_4_irq_return_to_thumb :
    ends ((start .fast .hle 0x1000#32 0x92#32 [(.r14Irq, 0x2006#32)] []).onCur fun c => { c with spsrIrq := 0x3F#32 }) 32 0xE25EF004
      [(.r15, 0x2002#32)] 0x3F#32 [] (fun _ => true) = true := by decide

/-- MOVS r0, r1, LSL #0 (95_test_vectors.md). -/
theorem test_movs_r0_r1_lsl_0 :
    ends (start .fast .hle 0x1000#32 0x2000001F#32 [(.r1, 0x80000000#32)] []) 32 0xE1B00001
      [(.r0, 0x80000000#32), (.r15, 0x100C#32)] 0xA000001F#32 [] (fun _ => true) = true := by decide

/-- MOVS pc, r14 (SVC return to ARM USR) (95_test_vectors.md). -/
theorem test_movs_pc_r14_svc_return_to_arm_usr :
    ends ((start .fast .hle 0x1000#32 0x93#32 [(.r14Svc, 0x2004#32)] []).onCur fun c => { c with spsrSvc := 0x60000010#32 }) 32 0xE1B0F00E
      [(.r15, 0x2004#32)] 0x60000010#32 [] (fun _ => true) = true := by decide

/-- ANDS r0, r1, r2 (95_test_vectors.md). -/
theorem test_ands_r0_r1_r2 :
    ends (start .fast .hle 0x1000#32 0x1F#32 [(.r1, 0xF0F0#32), (.r2, 0xF0F#32)] []) 32 0xE0110002
      [(.r0, 0x0#32), (.r15, 0x100C#32)] 0x4000001F#32 [] (fun _ => true) = true := by decide

/-- AND r0, r1, #0xFF (95_test_vectors.md). -/
theorem test_and_r0_r1_0xff :
    ends (start .fast .hle 0x1000#32 0x1F#32 [(.r1, 0x12345678#32)] []) 32 0xE20100FF
      [(.r0, 0x78#32), (.r15, 0x100C#32)] 0x1F#32 [] (fun _ => true) = true := by decide

/-- EORS r0, r1, r2 (95_test_vectors.md). -/
theorem test_eors_r0_r1_r2 :
    ends (start .fast .hle 0x1000#32 0x1F#32 [(.r1, 0xFFFF0000#32), (.r2, 0xFFFF#32)] []) 32 0xE0310002
      [(.r0, 0xFFFFFFFF#32), (.r15, 0x100C#32)] 0x8000001F#32 [] (fun _ => true) = true := by decide

/-- RSBS r0, r1, #0 (95_test_vectors.md). -/
theorem test_rsbs_r0_r1_0 :
    ends (start .fast .hle 0x1000#32 0x1F#32 [(.r1, 0x1#32)] []) 32 0xE2710000
      [(.r0, 0xFFFFFFFF#32), (.r15, 0x100C#32)] 0x8000001F#32 [] (fun _ => true) = true := by decide

/-- RSBS r0, r1, #0 (of 0) (95_test_vectors.md). -/
theorem test_rsbs_r0_r1_0_of_0 :
    ends (start .fast .hle 0x1000#32 0x1F#32 [(.r1, 0x0#32)] []) 32 0xE2710000
      [(.r0, 0x0#32), (.r15, 0x100C#32)] 0x6000001F#32 [] (fun _ => true) = true := by decide

/-- ADD r0, pc, #0 (95_test_vectors.md). -/
theorem test_add_r0_pc_0 :
    ends (start .fast .hle 0x1000#32 0x1F#32 [] []) 32 0xE28F0000
      [(.r0, 0x1008#32), (.r15, 0x100C#32)] 0x1F#32 [] (fun _ => true) = true := by decide

/-- ADD r0, pc, r1, LSL r2 (Rn = 15) (95_test_vectors.md). -/
theorem test_add_r0_pc_r1_lsl_r2_rn_15 :
    ends (start .fast .hle 0x1000#32 0x1F#32 [] []) 32 0xE08F0211
      [(.r0, 0x0#32), (.r15, 0x1008#32)] 0x1F#32 [] (fun c => c.diag == some ⟨.unrecognized, 0xE08F0211#32, 0x1000#32⟩) = true := by decide

/-- ADCS r0, r1, r2 (C = 1) (95_test_vectors.md). -/
theorem test_adcs_r0_r1_r2_c_1 :
    ends (start .fast .hle 0x1000#32 0x2000001F#32 [(.r1, 0xFFFFFFFF#32), (.r2, 0x0#32)] []) 32 0xE0B10002
      [(.r0, 0x0#32), (.r15, 0x100C#32)] 0x6000001F#32 [] (fun _ => true) = true := by decide

/-- ADCS r0, r1, r2 (C = 1, overflow) (95_test_vectors.md). -/
theorem test_adcs_r0_r1_r2_c_1_overflow :
    ends (start .fast .hle 0x1000#32 0x2000001F#32 [(.r1, 0x7FFFFFFF#32), (.r2, 0x0#32)] []) 32 0xE0B10002
      [(.r0, 0x80000000#32), (.r15, 0x100C#32)] 0x9000001F#32 [] (fun _ => true) = true := by decide

/-- SBCS r0, r1, r2 (C = 0) (95_test_vectors.md). -/
theorem test_sbcs_r0_r1_r2_c_0 :
    ends (start .fast .hle 0x1000#32 0x1F#32 [(.r1, 0x5#32), (.r2, 0x5#32)] []) 32 0xE0D10002
      [(.r0, 0xFFFFFFFF#32), (.r15, 0x100C#32)] 0x8000001F#32 [] (fun _ => true) = true := by decide

/-- SBCS r0, r1, r2 (0 - 0 - 1) (95_test_vectors.md). -/
theorem test_sbcs_r0_r1_r2_0_0_1 :
    ends (start .fast .hle 0x1000#32 0x1F#32 [(.r1, 0x0#32), (.r2, 0x0#32)] []) 32 0xE0D10002
      [(.r0, 0xFFFFFFFF#32), (.r15, 0x100C#32)] 0x8000001F#32 [] (fun _ => true) = true := by decide

/-- RSCS r0, r1, r2 (C = 0) (95_test_vectors.md). -/
theorem test_rscs_r0_r1_r2_c_0 :
    ends (start .fast .hle 0x1000#32 0x1F#32 [(.r1, 0x1#32), (.r2, 0x5#32)] []) 32 0xE0F10002
      [(.r0, 0x3#32), (.r15, 0x100C#32)] 0x2000001F#32 [] (fun _ => true) = true := by decide

/-- TST r1, r2 (95_test_vectors.md). -/
theorem test_tst_r1_r2 :
    ends (start .fast .hle 0x1000#32 0x2000001F#32 [(.r1, 0x80#32), (.r2, 0x7F#32)] []) 32 0xE1110002
      [(.r15, 0x100C#32)] 0x6000001F#32 [] (fun _ => true) = true := by decide

/-- TST r1, #0x80000000 (95_test_vectors.md). -/
theorem test_tst_r1_0x80000000 :
    ends (start .fast .hle 0x1000#32 0x1F#32 [(.r1, 0x80000000#32)] []) 32 0xE3110102
      [(.r15, 0x100C#32)] 0xA000001F#32 [] (fun _ => true) = true := by decide

/-- TEQ r1, r2 (95_test_vectors.md). -/
theorem test_teq_r1_r2 :
    ends (start .fast .hle 0x1000#32 0x1F#32 [(.r1, 0x80000000#32), (.r2, 0x0#32)] []) 32 0xE1310002
      [(.r15, 0x100C#32)] 0x8000001F#32 [] (fun _ => true) = true := by decide

/-- CMP r1, r2 (equal) (95_test_vectors.md). -/
theorem test_cmp_r1_r2_equal :
    ends (start .fast .hle 0x1000#32 0x1F#32 [(.r1, 0x3#32), (.r2, 0x3#32)] []) 32 0xE1510002
      [(.r15, 0x100C#32)] 0x6000001F#32 [] (fun _ => true) = true := by decide

/-- CMP r1, #1 (0 - 1) (95_test_vectors.md). -/
theorem test_cmp_r1_1_0_1 :
    ends (start .fast .hle 0x1000#32 0x1F#32 [(.r1, 0x0#32)] []) 32 0xE3510001
      [(.r15, 0x100C#32)] 0x8000001F#32 [] (fun _ => true) = true := by decide

/-- CMN r1, r2 (95_test_vectors.md). -/
theorem test_cmn_r1_r2 :
    ends (start .fast .hle 0x1000#32 0x1F#32 [(.r1, 0x80000000#32), (.r2, 0x80000000#32)] []) 32 0xE1710002
      [(.r15, 0x100C#32)] 0x7000001F#32 [] (fun _ => true) = true := by decide

/-- CMN r1, #1 (of -1) (95_test_vectors.md). -/
theorem test_cmn_r1_1_of_1 :
    ends (start .fast .hle 0x1000#32 0x1F#32 [(.r1, 0xFFFFFFFF#32)] []) 32 0xE3710001
      [(.r15, 0x100C#32)] 0x6000001F#32 [] (fun _ => true) = true := by decide

/-- ORRS r0, r1, r2 (95_test_vectors.md). -/
theorem test_orrs_r0_r1_r2 :
    ends (start .fast .hle 0x1000#32 0x1F#32 [(.r1, 0xF0#32), (.r2, 0x80000000#32)] []) 32 0xE1910002
      [(.r0, 0x800000F0#32), (.r15, 0x100C#32)] 0x8000001F#32 [] (fun _ => true) = true := by decide

/-- MOV r0, #0xFF000000 (95_test_vectors.md). -/
theorem test_mov_r0_0xff000000 :
    ends (start .fast .hle 0x1000#32 0x1F#32 [] []) 32 0xE3A004FF
      [(.r0, 0xFF000000#32), (.r15, 0x100C#32)] 0x1F#32 [] (fun _ => true) = true := by decide

/-- BICS r0, r1, r2 (95_test_vectors.md). -/
theorem test_bics_r0_r1_r2 :
    ends (start .fast .hle 0x1000#32 0x1F#32 [(.r1, 0xFF#32), (.r2, 0xFF#32)] []) 32 0xE1D10002
      [(.r0, 0x0#32), (.r15, 0x100C#32)] 0x4000001F#32 [] (fun _ => true) = true := by decide

/-- MVNS r0, r1 (95_test_vectors.md). -/
theorem test_mvns_r0_r1 :
    ends (start .fast .hle 0x1000#32 0x1F#32 [(.r1, 0x0#32)] []) 32 0xE1F00001
      [(.r0, 0xFFFFFFFF#32), (.r15, 0x100C#32)] 0x8000001F#32 [] (fun _ => true) = true := by decide

/-- MVN r0, #0 (95_test_vectors.md). -/
theorem test_mvn_r0_0 :
    ends (start .fast .hle 0x1000#32 0x1F#32 [] []) 32 0xE3E00000
      [(.r0, 0xFFFFFFFF#32), (.r15, 0x100C#32)] 0x1F#32 [] (fun _ => true) = true := by decide

/-- ADDEQ r0, r1, r2 (Z = 0) (95_test_vectors.md). -/
theorem test_addeq_r0_r1_r2_z_0 :
    ends (start .fast .hle 0x1000#32 0x1F#32 [(.r0, 0x7#32), (.r1, 0x1#32), (.r2, 0x2#32)] []) 32 0x00810002
      [(.r0, 0x7#32), (.r15, 0x100C#32)] 0x1F#32 [] (fun _ => true) = true := by decide

/-- ADDNE r0, r1, r2 (Z = 0) (95_test_vectors.md). -/
theorem test_addne_r0_r1_r2_z_0 :
    ends (start .fast .hle 0x1000#32 0x1F#32 [(.r1, 0x1#32), (.r2, 0x2#32)] []) 32 0x10810002
      [(.r0, 0x3#32), (.r15, 0x100C#32)] 0x1F#32 [] (fun _ => true) = true := by decide

/-- ADDGT r0, r1, r2 (N = V = 1, Z = 0) (95_test_vectors.md). -/
theorem test_addgt_r0_r1_r2_n_v_1_z_0 :
    ends (start .fast .hle 0x1000#32 0x9000001F#32 [(.r1, 0x1#32), (.r2, 0x2#32)] []) 32 0xC0810002
      [(.r0, 0x3#32), (.r15, 0x100C#32)] 0x9000001F#32 [] (fun _ => true) = true := by decide

/-- ADDLS r0, r1, r2 (C = 1, Z = 0) (95_test_vectors.md). -/
theorem test_addls_r0_r1_r2_c_1_z_0 :
    ends (start .fast .hle 0x1000#32 0x2000001F#32 [(.r0, 0x9#32), (.r1, 0x1#32), (.r2, 0x2#32)] []) 32 0x90810002
      [(.r0, 0x9#32), (.r15, 0x100C#32)] 0x2000001F#32 [] (fun _ => true) = true := by decide

/-- MRS r0, cpsr (95_test_vectors.md). -/
theorem test_mrs_r0_cpsr :
    ends (start .fast .hle 0x1000#32 0x6000001F#32 [] []) 32 0xE10F0000
      [(.r0, 0x6000001F#32), (.r15, 0x100C#32)] 0x6000001F#32 [] (fun _ => true) = true := by decide

/-- MRS r15, cpsr (95_test_vectors.md). -/
theorem test_mrs_r15_cpsr :
    ends (start .fast .hle 0x1000#32 0x1F#32 [] []) 32 0xE10FF000
      [(.r15, 0x1008#32)] 0x1F#32 [] (fun c => c.diag == some ⟨.unrecognized, 0xE10FF000#32, 0x1000#32⟩) = true := by decide

/-- MSR cpsr_c, r1 (SVC to IRQ) (95_test_vectors.md). -/
theorem test_msr_cpsr_c_r1_svc_to_irq :
    ends (start .fast .hle 0x1000#32 0x13#32 [(.r1, 0xD2#32)] []) 32 0xE121F001
      [(.r15, 0x1004#32)] 0xD2#32 [] (fun _ => true) = true := by decide

/-- MUL r0, r1, r2 (95_test_vectors.md). -/
theorem test_mul_r0_r1_r2 :
    ends (start .fast .hle 0x1000#32 0x1F#32 [(.r1, 0x6#32), (.r2, 0x7#32)] []) 32 0xE0000291
      [(.r0, 0x2A#32), (.r15, 0x100C#32)] 0x1F#32 [] (fun _ => true) = true := by decide

/-- MUL r15, r1, r2 (95_test_vectors.md). -/
theorem test_mul_r15_r1_r2 :
    ends (start .fast .hle 0x1000#32 0x1F#32 [] []) 32 0xE00F0291
      [(.r15, 0x1008#32)] 0x1F#32 [] (fun c => c.diag == some ⟨.unrecognized, 0xE00F0291#32, 0x1000#32⟩) = true := by decide

/-- MULS r0, r1, r2 (negative) (95_test_vectors.md). -/
theorem test_muls_r0_r1_r2_negative :
    ends (start .fast .hle 0x1000#32 0x3000001F#32 [(.r1, 0xFFFFFFFF#32), (.r2, 0x2#32)] []) 32 0xE0100291
      [(.r0, 0xFFFFFFFE#32), (.r15, 0x100C#32)] 0xB000001F#32 [] (fun _ => true) = true := by decide

/-- MLA r0, r1, r2, r3 (95_test_vectors.md). -/
theorem test_mla_r0_r1_r2_r3 :
    ends (start .fast .hle 0x1000#32 0x1F#32 [(.r1, 0x6#32), (.r2, 0x7#32), (.r3, 0x64#32)] []) 32 0xE0203291
      [(.r0, 0x8E#32), (.r15, 0x100C#32)] 0x1F#32 [] (fun _ => true) = true := by decide

/-- MLAS r0, r1, r2, r3 (wraps to 0) (95_test_vectors.md). -/
theorem test_mlas_r0_r1_r2_r3_wraps_to_0 :
    ends (start .fast .hle 0x1000#32 0x1F#32 [(.r1, 0x10000#32), (.r2, 0x10000#32), (.r3, 0x0#32)] []) 32 0xE0303291
      [(.r0, 0x0#32), (.r15, 0x100C#32)] 0x4000001F#32 [] (fun _ => true) = true := by decide

/-- UMULL r0, r1, r2, r3 (95_test_vectors.md). -/
theorem test_umull_r0_r1_r2_r3 :
    ends (start .fast .hle 0x1000#32 0x1F#32 [(.r2, 0xFFFFFFFF#32), (.r3, 0xFFFFFFFF#32)] []) 32 0xE0810392
      [(.r0, 0x1#32), (.r1, 0xFFFFFFFE#32), (.r15, 0x100C#32)] 0x1F#32 [] (fun _ => true) = true := by decide

/-- UMULL r0, r0, r2, r3 (RdHi = RdLo) (95_test_vectors.md). -/
theorem test_umull_r0_r0_r2_r3_rdhi_rdlo :
    ends (start .fast .hle 0x1000#32 0x1F#32 [] []) 32 0xE0800392
      [(.r15, 0x1008#32)] 0x1F#32 [] (fun c => c.diag == some ⟨.unrecognized, 0xE0800392#32, 0x1000#32⟩) = true := by decide

/-- UMLAL r0, r1, r2, r3 (95_test_vectors.md). -/
theorem test_umlal_r0_r1_r2_r3 :
    ends (start .fast .hle 0x1000#32 0x1F#32 [(.r0, 0xFFFFFFFF#32), (.r1, 0x0#32), (.r2, 0x1#32), (.r3, 0x1#32)] []) 32 0xE0A10392
      [(.r0, 0x0#32), (.r1, 0x1#32), (.r15, 0x100C#32)] 0x1F#32 [] (fun _ => true) = true := by decide

/-- SMULL r0, r1, r2, r3 (95_test_vectors.md). -/
theorem test_smull_r0_r1_r2_r3 :
    ends (start .fast .hle 0x1000#32 0x1F#32 [(.r2, 0x80000000#32), (.r3, 0x80000000#32)] []) 32 0xE0C10392
      [(.r0, 0x0#32), (.r1, 0x40000000#32), (.r15, 0x100C#32)] 0x1F#32 [] (fun _ => true) = true := by decide

/-- SMULLS r0, r1, r2, r3 (negative) (95_test_vectors.md). -/
theorem test_smulls_r0_r1_r2_r3_negative :
    ends (start .fast .hle 0x1000#32 0x1F#32 [(.r2, 0xFFFFFFFE#32), (.r3, 0x3#32)] []) 32 0xE0D10392
      [(.r0, 0xFFFFFFFA#32), (.r1, 0xFFFFFFFF#32), (.r15, 0x100C#32)] 0x8000001F#32 [] (fun _ => true) = true := by decide

/-- SMLAL r0, r1, r2, r3 (95_test_vectors.md). -/
theorem test_smlal_r0_r1_r2_r3 :
    ends (start .fast .hle 0x1000#32 0x1F#32 [(.r0, 0xA#32), (.r1, 0x0#32), (.r2, 0xFFFFFFFF#32), (.r3, 0x5#32)] []) 32 0xE0E10392
      [(.r0, 0x5#32), (.r1, 0x0#32), (.r15, 0x100C#32)] 0x1F#32 [] (fun _ => true) = true := by decide

/-- CLZ r0, r1 (0) (95_test_vectors.md). -/
theorem test_clz_r0_r1_0 :
    ends (start .fast .hle 0x1000#32 0x1F#32 [(.r1, 0x0#32)] []) 32 0xE16F0F11
      [(.r0, 0x20#32), (.r15, 0x100C#32)] 0x1F#32 [] (fun _ => true) = true := by decide

/-- CLZ r0, r1 (SLOW) (95_test_vectors.md). -/
theorem test_slow_clz_r0_r1_slow :
    ends (start .slow .hle 0x1000#32 0x1F#32 [(.r1, 0x1#32)] []) 32 0xE16F0F11
      [(.r0, 0x0#32), (.r15, 0x1008#32)] 0x1F#32 [] (fun c => c.diag == some ⟨.unrecognized, 0xE16F0F11#32, 0x1000#32⟩) = true := by decide

/-- QADD r0, r1, r2 (no saturation) (95_test_vectors.md). -/
theorem test_qadd_r0_r1_r2_no_saturation :
    ends (start .fast .hle 0x1000#32 0x1F#32 [(.r1, 0x5#32), (.r2, 0x6#32)] []) 32 0xE1020051
      [(.r0, 0xB#32), (.r15, 0x100C#32)] 0x1F#32 [] (fun _ => true) = true := by decide

/-- QADD, Q already 1 (95_test_vectors.md). -/
theorem test_qadd_q_already_1 :
    ends (start .fast .hle 0x1000#32 0x800001F#32 [(.r1, 0x1#32), (.r2, 0x1#32)] []) 32 0xE1020051
      [(.r0, 0x2#32), (.r15, 0x100C#32)] 0x800001F#32 [] (fun _ => true) = true := by decide

/-- QSUB r0, r1, r2 (95_test_vectors.md). -/
theorem test_qsub_r0_r1_r2 :
    ends (start .fast .hle 0x1000#32 0x1F#32 [(.r1, 0x7FFFFFFF#32), (.r2, 0xFFFFFFFF#32)] []) 32 0xE1220051
      [(.r0, 0x7FFFFFFF#32), (.r15, 0x100C#32)] 0x800001F#32 [] (fun _ => true) = true := by decide

/-- QDADD r0, r1, r2 (95_test_vectors.md). -/
theorem test_qdadd_r0_r1_r2 :
    ends (start .fast .hle 0x1000#32 0x1F#32 [(.r1, 0x3#32), (.r2, 0x20000000#32)] []) 32 0xE1420051
      [(.r0, 0x40000003#32), (.r15, 0x100C#32)] 0x1F#32 [] (fun _ => true) = true := by decide

/-- QDSUB r0, r1, r2 (95_test_vectors.md). -/
theorem test_qdsub_r0_r1_r2 :
    ends (start .fast .hle 0x1000#32 0x1F#32 [(.r1, 0x80000000#32), (.r2, 0x40000000#32)] []) 32 0xE1620051
      [(.r0, 0x80000000#32), (.r15, 0x100C#32)] 0x800001F#32 [] (fun _ => true) = true := by decide

/-- SMLABT r0, r1, r2, r3 (95_test_vectors.md). -/
theorem test_smlabt_r0_r1_r2_r3 :
    ends (start .fast .hle 0x1000#32 0x1F#32 [(.r1, 0xFFFF#32), (.r2, 0x50000#32), (.r3, 0x3#32)] []) 32 0xE10032C1
      [(.r0, 0xFFFFFFFE#32), (.r15, 0x100C#32)] 0x1F#32 [] (fun _ => true) = true := by decide

/-- SMLATB r0, r1, r2, r3 (Q) (95_test_vectors.md). -/
theorem test_smlatb_r0_r1_r2_r3_q :
    ends (start .fast .hle 0x1000#32 0x1F#32 [(.r1, 0x7FFF0000#32), (.r2, 0x7FFF#32), (.r3, 0x7FFFFFFF#32)] []) 32 0xE10032A1
      [(.r0, 0xBFFF0000#32), (.r15, 0x100C#32)] 0x800001F#32 [] (fun _ => true) = true := by decide

/-- SMLAWT r0, r1, r2, r3 (95_test_vectors.md). -/
theorem test_smlawt_r0_r1_r2_r3 :
    ends (start .fast .hle 0x1000#32 0x1F#32 [(.r1, 0xFFFFFFFF#32), (.r2, 0x20000#32), (.r3, 0x0#32)] []) 32 0xE12032C1
      [(.r0, 0xFFFFFFFF#32), (.r15, 0x100C#32)] 0x1F#32 [] (fun _ => true) = true := by decide

/-- SMULWT r0, r1, r2 (95_test_vectors.md). -/
theorem test_smulwt_r0_r1_r2 :
    ends (start .fast .hle 0x1000#32 0x1F#32 [(.r1, 0x30000#32), (.r2, 0x20000#32)] []) 32 0xE12002E1
      [(.r0, 0x6#32), (.r15, 0x100C#32)] 0x1F#32 [] (fun _ => true) = true := by decide

/-- SMLALTT r0, r1, r2, r3 (95_test_vectors.md). -/
theorem test_smlaltt_r0_r1_r2_r3 :
    ends (start .fast .hle 0x1000#32 0x1F#32 [(.r0, 0xFFFFFFFF#32), (.r1, 0x0#32), (.r2, 0x20000#32), (.r3, 0x30000#32)] []) 32 0xE14103E2
      [(.r0, 0x5#32), (.r1, 0x1#32), (.r15, 0x100C#32)] 0x1F#32 [] (fun _ => true) = true := by decide

/-- SMULTB r0, r1, r2 (95_test_vectors.md). -/
theorem test_smultb_r0_r1_r2 :
    ends (start .fast .hle 0x1000#32 0x1F#32 [(.r1, 0xFFFF0000#32), (.r2, 0x5#32)] []) 32 0xE16002A1
      [(.r0, 0xFFFFFFFB#32), (.r15, 0x100C#32)] 0x1F#32 [] (fun _ => true) = true := by decide

/-- SMULBB r0, r1, r2 (SLOW) (95_test_vectors.md). -/
theorem test_slow_smulbb_r0_r1_r2_slow :
    ends (start .slow .hle 0x1000#32 0x1F#32 [(.r1, 0x2#32), (.r2, 0x3#32)] []) 32 0xE1600281
      [(.r0, 0x0#32), (.r15, 0x1008#32)] 0x1F#32 [] (fun c => c.diag == some ⟨.unrecognized, 0xE1600281#32, 0x1000#32⟩) = true := by decide

/-- LDR r0, [r1] (95_test_vectors.md). -/
theorem test_ldr_r0_r1 :
    ends (start .fast .hle 0x1000#32 0x1F#32 [(.r1, 0x2000#32)] [(0x2000#32, 0x44332211#32), (0x2004#32, 0x88776655#32), (0x2008#32, 0xCCBBAA99#32)]) 32 0xE5910000
      [(.r0, 0x44332211#32), (.r15, 0x100C#32)] 0x1F#32 [] (fun _ => true) = true := by decide

/-- LDR r0, [r15, #4]! (wb, Rn = 15) (95_test_vectors.md). -/
theorem test_ldr_r0_r15_4_wb_rn_15 :
    ends (start .fast .hle 0x1000#32 0x1F#32 [] []) 32 0xE5BF0004
      [(.r15, 0x1008#32)] 0x1F#32 [] (fun c => c.diag == some ⟨.unrecognized, 0xE5BF0004#32, 0x1000#32⟩) = true := by decide

/-- LDRB r0, [r1, #2] (95_test_vectors.md). -/
theorem test_ldrb_r0_r1_2 :
    ends (start .fast .hle 0x1000#32 0x1F#32 [(.r1, 0x2000#32)] [(0x2000#32, 0x44332211#32), (0x2004#32, 0x88776655#32), (0x2008#32, 0xCCBBAA99#32)]) 32 0xE5D10002
      [(.r0, 0x33#32), (.r15, 0x100C#32)] 0x1F#32 [] (fun _ => true) = true := by decide

/-- LDRB r15, [r1] (95_test_vectors.md). -/
theorem test_ldrb_r15_r1 :
    ends (start .fast .hle 0x1000#32 0x1F#32 [(.r1, 0x2000#32)] []) 32 0xE5D1F000
      [(.r15, 0x1008#32)] 0x1F#32 [] (fun c => c.diag == some ⟨.unrecognized, 0xE5D1F000#32, 0x1000#32⟩) = true := by decide

/-- STR r0, [r1, #-4]! (95_test_vectors.md). -/
theorem test_str_r0_r1_4 :
    ends (start .fast .hle 0x1000#32 0x1F#32 [(.r0, 0xDEADBEEF#32), (.r1, 0x2004#32)] []) 32 0xE5210004
      [(.r1, 0x2000#32), (.r15, 0x100C#32)] 0x1F#32 [(0x2000#32, .word, 0xDEADBEEF#32)] (fun _ => true) = true := by decide

/-- STR pc, [r1] (95_test_vectors.md). -/
theorem test_str_pc_r1 :
    ends (start .fast .hle 0x1000#32 0x1F#32 [(.r1, 0x2000#32)] []) 32 0xE581F000
      [(.r15, 0x100C#32)] 0x1F#32 [(0x2000#32, .word, 0x100C#32)] (fun _ => true) = true := by decide

/-- STRB r0, [r1, #3] (95_test_vectors.md). -/
theorem test_strb_r0_r1_3 :
    ends (start .fast .hle 0x1000#32 0x1F#32 [(.r0, 0x1234ABCD#32), (.r1, 0x2000#32)] []) 32 0xE5C10003
      [(.r15, 0x100C#32)] 0x1F#32 [(0x2003#32, .byte, 0xCD#32)] (fun _ => true) = true := by decide

/-- LDRT r0, [r1], #0 (SVC) (95_test_vectors.md). -/
theorem test_ldrt_r0_r1_0_svc :
    ends (start .fast .hle 0x1000#32 0x13#32 [(.r1, 0x2000#32)] [(0x2000#32, 0x44332211#32), (0x2004#32, 0x88776655#32), (0x2008#32, 0xCCBBAA99#32)]) 32 0xE4B10000
      [(.r0, 0x44332211#32), (.r15, 0x100C#32)] 0x13#32 [] (fun _ => true) = true := by decide

/-- STRBT r0, [r1], #1 (95_test_vectors.md). -/
theorem test_strbt_r0_r1_1 :
    ends (start .fast .hle 0x1000#32 0x1F#32 [(.r0, 0x7F#32), (.r1, 0x2000#32)] []) 32 0xE4E10001
      [(.r1, 0x2001#32), (.r15, 0x100C#32)] 0x1F#32 [(0x2000#32, .byte, 0x7F#32)] (fun _ => true) = true := by decide

/-- LDRH r0, [r1, #2] (95_test_vectors.md). -/
theorem test_ldrh_r0_r1_2 :
    ends (start .fast .hle 0x1000#32 0x1F#32 [(.r1, 0x2000#32)] [(0x2000#32, 0x44332211#32), (0x2004#32, 0x88776655#32), (0x2008#32, 0xCCBBAA99#32)]) 32 0xE1D100B2
      [(.r0, 0x4433#32), (.r15, 0x100C#32)] 0x1F#32 [] (fun _ => true) = true := by decide

/-- LDRH r15, [r1] (95_test_vectors.md). -/
theorem test_ldrh_r15_r1 :
    ends (start .fast .hle 0x1000#32 0x1F#32 [(.r1, 0x2000#32)] []) 32 0xE1D1F0B0
      [(.r15, 0x1008#32)] 0x1F#32 [] (fun c => c.diag == some ⟨.unrecognized, 0xE1D1F0B0#32, 0x1000#32⟩) = true := by decide

/-- LDRSH r0, [r1, #2] (95_test_vectors.md). -/
theorem test_ldrsh_r0_r1_2 :
    ends (start .fast .hle 0x1000#32 0x1F#32 [(.r1, 0x2004#32)] [(0x2000#32, 0x44332211#32), (0x2004#32, 0x88776655#32), (0x2008#32, 0xCCBBAA99#32)]) 32 0xE1D100F2
      [(.r0, 0xFFFF8877#32), (.r15, 0x100C#32)] 0x1F#32 [] (fun _ => true) = true := by decide

/-- LDRSH r0, [r1, #1] (misaligned) (95_test_vectors.md). -/
theorem test_ldrsh_r0_r1_1_misaligned :
    ends (start .fast .hle 0x1000#32 0x1F#32 [(.r1, 0x2004#32)] [(0x2000#32, 0x44332211#32), (0x2004#32, 0x88776655#32), (0x2008#32, 0xCCBBAA99#32)]) 32 0xE1D100F1
      [(.r0, 0x6655#32), (.r15, 0x100C#32)] 0x1F#32 [] (fun _ => true) = true := by decide

/-- LDRSB r0, [r1, #3] (95_test_vectors.md). -/
theorem test_ldrsb_r0_r1_3 :
    ends (start .fast .hle 0x1000#32 0x1F#32 [(.r1, 0x2004#32)] [(0x2000#32, 0x44332211#32), (0x2004#32, 0x88776655#32), (0x2008#32, 0xCCBBAA99#32)]) 32 0xE1D100D3
      [(.r0, 0xFFFFFF88#32), (.r15, 0x100C#32)] 0x1F#32 [] (fun _ => true) = true := by decide

/-- STRH r0, [r1, #-2]! (95_test_vectors.md). -/
theorem test_strh_r0_r1_2 :
    ends (start .fast .hle 0x1000#32 0x1F#32 [(.r0, 0xFFFF1234#32), (.r1, 0x2004#32)] []) 32 0xE16100B2
      [(.r1, 0x2002#32), (.r15, 0x100C#32)] 0x1F#32 [(0x2002#32, .half, 0x1234#32)] (fun _ => true) = true := by decide

/-- LDRD r2, [r1] (95_test_vectors.md). -/
theorem test_ldrd_r2_r1 :
    ends (start .fast .hle 0x1000#32 0x1F#32 [(.r1, 0x2000#32)] [(0x2000#32, 0x44332211#32), (0x2004#32, 0x88776655#32), (0x2008#32, 0xCCBBAA99#32)]) 32 0xE1C120D0
      [(.r2, 0x44332211#32), (.r3, 0x88776655#32), (.r15, 0x100C#32)] 0x1F#32 [] (fun _ => true) = true := by decide

/-- LDRD r2, [r1] (SLOW) (95_test_vectors.md). -/
theorem test_slow_ldrd_r2_r1_slow :
    ends (start .slow .hle 0x1000#32 0x1F#32 [(.r1, 0x2000#32)] [(0x2000#32, 0x44332211#32), (0x2004#32, 0x88776655#32), (0x2008#32, 0xCCBBAA99#32)]) 32 0xE1C120D0
      [(.r15, 0x1008#32)] 0x1F#32 [] (fun c => c.diag == some ⟨.unrecognized, 0xE1C120D0#32, 0x1000#32⟩) = true := by decide

/-- STRD r2, [r1, #-8]! (95_test_vectors.md). -/
theorem test_strd_r2_r1_8 :
    ends (start .fast .hle 0x1000#32 0x1F#32 [(.r1, 0x2010#32), (.r2, 0x11111111#32), (.r3, 0x22222222#32)] []) 32 0xE16120F8
      [(.r1, 0x2008#32), (.r15, 0x100C#32)] 0x1F#32 [(0x2008#32, .word, 0x11111111#32), (0x200C#32, .word, 0x22222222#32)] (fun _ => true) = true := by decide

/-- LDMIA r0, {r1-r3} (95_test_vectors.md). -/
theorem test_ldmia_r0_r1_r3 :
    ends (start .fast .hle 0x1000#32 0x1F#32 [(.r0, 0x2000#32)] [(0x2000#32, 0x44332211#32), (0x2004#32, 0x88776655#32), (0x2008#32, 0xCCBBAA99#32)]) 32 0xE890000E
      [(.r0, 0x2000#32), (.r1, 0x44332211#32), (.r2, 0x88776655#32), (.r3, 0xCCBBAA99#32), (.r15, 0x100C#32)] 0x1F#32 [] (fun _ => true) = true := by decide

/-- LDMIA r0!, {r0, r1} (95_test_vectors.md). -/
theorem test_ldmia_r0_r0_r1 :
    ends (start .fast .hle 0x1000#32 0x1F#32 [(.r0, 0x2000#32)] []) 32 0xE8B00003
      [(.r15, 0x1008#32)] 0x1F#32 [] (fun c => c.diag == some ⟨.unrecognized, 0xE8B00003#32, 0x1000#32⟩) = true := by decide

/-- LDMIB r0!, {r1, r2} (95_test_vectors.md). -/
theorem test_ldmib_r0_r1_r2 :
    ends (start .fast .hle 0x1000#32 0x1F#32 [(.r0, 0x2000#32)] [(0x2000#32, 0x44332211#32), (0x2004#32, 0x88776655#32), (0x2008#32, 0xCCBBAA99#32)]) 32 0xE9B00006
      [(.r0, 0x2008#32), (.r1, 0x88776655#32), (.r2, 0xCCBBAA99#32), (.r15, 0x100C#32)] 0x1F#32 [] (fun _ => true) = true := by decide

/-- LDMDA r0!, {r1, r2} (95_test_vectors.md). -/
theorem test_ldmda_r0_r1_r2 :
    ends (start .fast .hle 0x1000#32 0x1F#32 [(.r0, 0x2008#32)] [(0x2000#32, 0x44332211#32), (0x2004#32, 0x88776655#32), (0x2008#32, 0xCCBBAA99#32)]) 32 0xE8300006
      [(.r0, 0x2000#32), (.r1, 0x88776655#32), (.r2, 0xCCBBAA99#32), (.r15, 0x100C#32)] 0x1F#32 [] (fun _ => true) = true := by decide

/-- LDMDB r0, {r1, r2} (95_test_vectors.md). -/
theorem test_ldmdb_r0_r1_r2 :
    ends (start .fast .hle 0x1000#32 0x1F#32 [(.r0, 0x2008#32)] [(0x2000#32, 0x44332211#32), (0x2004#32, 0x88776655#32), (0x2008#32, 0xCCBBAA99#32)]) 32 0xE9100006
      [(.r1, 0x44332211#32), (.r2, 0x88776655#32), (.r15, 0x100C#32)] 0x1F#32 [] (fun _ => true) = true := by decide

/-- STMDB sp!, {r0, r1, lr} (95_test_vectors.md). -/
theorem test_stmdb_sp_r0_r1_lr :
    ends (start .fast .hle 0x1000#32 0x1F#32 [(.r0, 0x1#32), (.r1, 0x2#32), (.r14Usr, 0x3000#32), (.r13Usr, 0x3000#32)] []) 32 0xE92D4003
      [(.r13Usr, 0x2FF4#32), (.r15, 0x100C#32)] 0x1F#32 [(0x2FF4#32, .word, 0x1#32), (0x2FF8#32, .word, 0x2#32), (0x2FFC#32, .word, 0x3000#32)] (fun _ => true) = true := by decide

/-- STMIA r0!, {r0, r1} (base lowest) (95_test_vectors.md). -/
theorem test_stmia_r0_r0_r1_base_lowest :
    ends (start .fast .hle 0x1000#32 0x1F#32 [(.r0, 0x2000#32), (.r1, 0x7#32)] []) 32 0xE8A00003
      [(.r0, 0x2008#32), (.r15, 0x100C#32)] 0x1F#32 [(0x2000#32, .word, 0x2000#32), (0x2004#32, .word, 0x7#32)] (fun _ => true) = true := by decide

/-- STMIA r1!, {r0, r1} (base not lowest) (95_test_vectors.md). -/
theorem test_stmia_r1_r0_r1_base_not_lowest :
    ends (start .fast .hle 0x1000#32 0x1F#32 [(.r1, 0x2000#32)] []) 32 0xE8A10003
      [(.r15, 0x1008#32)] 0x1F#32 [] (fun c => c.diag == some ⟨.unrecognized, 0xE8A10003#32, 0x1000#32⟩) = true := by decide

/-- LDMFD sp!, {r0, pc}^ (IRQ return) (95_test_vectors.md). -/
theorem test_ldmfd_sp_r0_pc_irq_return :
    ends ((start .fast .hle 0x1000#32 0x92#32 [(.r13Irq, 0x3000#32)] [(0x3000#32, 0x9#32), (0x3004#32, 0x4000#32)]).onCur fun c => { c with spsrIrq := 0x2000003F#32 }) 32 0xE8FD8001
      [(.r0, 0x9#32), (.r13Irq, 0x3008#32), (.r15, 0x4000#32)] 0x2000003F#32 [] (fun _ => true) = true := by decide

/-- SWP r0, r1, [r2] (95_test_vectors.md). -/
theorem test_swp_r0_r1_r2 :
    ends (start .fast .hle 0x1000#32 0x1F#32 [(.r1, 0x55#32), (.r2, 0x2000#32)] [(0x2000#32, 0x44332211#32), (0x2004#32, 0x88776655#32), (0x2008#32, 0xCCBBAA99#32)]) 32 0xE1020091
      [(.r0, 0x44332211#32), (.r15, 0x100C#32)] 0x1F#32 [(0x2000#32, .word, 0x55#32)] (fun _ => true) = true := by decide

/-- SWP r1, r1, [r0] (Rd = Rm) (95_test_vectors.md). -/
theorem test_swp_r1_r1_r0_rd_rm :
    ends (start .fast .hle 0x1000#32 0x1F#32 [(.r0, 0x2000#32), (.r1, 0x3#32)] [(0x2000#32, 0x44332211#32), (0x2004#32, 0x88776655#32), (0x2008#32, 0xCCBBAA99#32)]) 32 0xE1001091
      [(.r1, 0x44332211#32), (.r15, 0x100C#32)] 0x1F#32 [(0x2000#32, .word, 0x3#32)] (fun _ => true) = true := by decide

/-- SWPB r0, r1, [r2] (95_test_vectors.md). -/
theorem test_swpb_r0_r1_r2 :
    ends (start .fast .hle 0x1000#32 0x1F#32 [(.r1, 0x1FF#32), (.r2, 0x2001#32)] [(0x2000#32, 0x44332211#32), (0x2004#32, 0x88776655#32), (0x2008#32, 0xCCBBAA99#32)]) 32 0xE1420091
      [(.r0, 0x22#32), (.r15, 0x100C#32)] 0x1F#32 [(0x2001#32, .byte, 0xFF#32)] (fun _ => true) = true := by decide

/-- PLD [r1] (95_test_vectors.md). -/
theorem test_pld_r1 :
    ends (start .fast .hle 0x1000#32 0x1F#32 [(.r1, 0x2000#32)] []) 32 0xF5D1F000
      [(.r15, 0x100C#32)] 0x1F#32 [] (fun _ => true) = true := by decide

/-- PLD [r1] (SLOW) (95_test_vectors.md). -/
theorem test_slow_pld_r1_slow :
    ends (start .slow .hle 0x1000#32 0x1F#32 [(.r1, 0x2000#32)] []) 32 0xF5D1F000
      [(.r15, 0x100C#32)] 0x1F#32 [] (fun _ => true) = true := by decide

/-- B +8 (95_test_vectors.md). -/
theorem test_b_8 :
    ends (start .fast .hle 0x1000#32 0x1F#32 [] []) 32 0xEA000000
      [(.r15, 0x1008#32)] 0x1F#32 [] (fun _ => true) = true := by decide

/-- BL +0x100 (95_test_vectors.md). -/
theorem test_bl_0x100 :
    ends (start .fast .hle 0x1000#32 0x1F#32 [] []) 32 0xEB00003E
      [(.r14Usr, 0x1004#32), (.r15, 0x1100#32)] 0x1F#32 [] (fun _ => true) = true := by decide

/-- BLNE (Z = 1, not taken) (95_test_vectors.md). -/
theorem test_blne_z_1_not_taken :
    ends (start .fast .hle 0x1000#32 0x4000001F#32 [] []) 32 0x1B00003E
      [(.r14Usr, 0x0#32), (.r15, 0x100C#32)] 0x4000001F#32 [] (fun _ => true) = true := by decide

/-- BX r0 (to Thumb) (95_test_vectors.md). -/
theorem test_bx_r0_to_thumb :
    ends (start .fast .hle 0x1000#32 0x1F#32 [(.r0, 0x2001#32)] []) 32 0xE12FFF10
      [(.r15, 0x2000#32)] 0x3F#32 [] (fun _ => true) = true := by decide

/-- BX r0 (SLOW, to Thumb) (95_test_vectors.md). -/
theorem test_slow_bx_r0_slow_to_thumb :
    ends (start .slow .hle 0x1000#32 0x1F#32 [(.r0, 0x2001#32)] []) 32 0xE12FFF10
      [(.r15, 0x2000#32)] 0x3F#32 [] (fun _ => true) = true := by decide

/-- BLX +4 (H = 1) (95_test_vectors.md). -/
theorem test_blx_4_h_1 :
    ends (start .fast .hle 0x1000#32 0x1F#32 [] []) 32 0xFB000000
      [(.r14Usr, 0x1004#32), (.r15, 0x100A#32)] 0x3F#32 [] (fun _ => true) = true := by decide

/-- BLX r0 (SLOW) (95_test_vectors.md). -/
theorem test_slow_blx_r0_slow :
    ends (start .slow .hle 0x1000#32 0x1F#32 [(.r0, 0x3001#32)] []) 32 0xE12FFF30
      [(.r15, 0x1008#32)] 0x1F#32 [] (fun c => c.diag == some ⟨.unrecognized, 0xE12FFF30#32, 0x1000#32⟩) = true := by decide

/-- SWI 0x030000 (WaitByLoop, r0 = 3) (95_test_vectors.md). -/
theorem test_swi_0x030000_waitbyloop_r0_3 :
    ends (start .fast .hle 0x1000#32 0x1F#32 [(.r0, 0x3#32)] []) 32 0xEF030000
      [(.r15, 0x100C#32)] 0x1F#32 [] (fun c => c.idleState == .waitLoop) = true := by decide

/-- BKPT #0 (95_test_vectors.md). -/
theorem test_bkpt_0 :
    ends (start .fast .hle 0x1000#32 0x1F#32 [] []) 32 0xE1200070
      [(.r15, 0x1008#32)] 0x1F#32 [] (fun c => c.diag == some ⟨.unrecognized, 0xE1200070#32, 0x1000#32⟩) = true := by decide

/-- MCR p15, 0, r0, c7, c0, 4 (wait for interrupt) (95_test_vectors.md). -/
theorem test_mcr_p15_0_r0_c7_c0_4_wait_for_interrupt :
    ends (start .fast .hle 0x1000#32 0x13#32 [] []) 32 0xEE070F90
      [(.r15, 0x100C#32)] 0x13#32 [] (fun c => c.idleState == .halted) = true := by decide

/-- MCR p14, 0, r0, c0, c0, 0 (95_test_vectors.md). -/
theorem test_mcr_p14_0_r0_c0_c0_0 :
    ends (start .fast .hle 0x1000#32 0x13#32 [] []) 32 0xEE000E10
      [(.r15, 0x1008#32)] 0x13#32 [] (fun c => c.diag == some ⟨.unrecognized, 0xEE000E10#32, 0x1000#32⟩) = true := by decide

/-- MRC p15, 0, r0, c0, c0, 0 (no Cp15) (95_test_vectors.md). -/
theorem test_mrc_p15_0_r0_c0_c0_0_no_cp15 :
    ends (start .fast .hle 0x1000#32 0x13#32 [(.r0, 0x5#32)] []) 32 0xEE100F10
      [(.r0, 0x0#32), (.r15, 0x100C#32)] 0x13#32 [] (fun _ => true) = true := by decide

/-- MRC p15 (SLOW) (95_test_vectors.md). -/
theorem test_slow_mrc_p15_slow :
    ends (start .slow .hle 0x1000#32 0x13#32 [] []) 32 0xEE100F10
      [(.r15, 0x1008#32)] 0x13#32 [] (fun c => c.diag == some ⟨.unrecognized, 0xEE100F10#32, 0x1000#32⟩) = true := by decide

/-- CDP p15 (95_test_vectors.md). -/
theorem test_cdp_p15 :
    ends (start .fast .hle 0x1000#32 0x13#32 [] []) 32 0xEE000F00
      [(.r15, 0x1008#32)] 0x13#32 [] (fun c => c.diag == some ⟨.unrecognized, 0xEE000F00#32, 0x1000#32⟩) = true := by decide

/-- LDC p15 (95_test_vectors.md). -/
theorem test_ldc_p15 :
    ends (start .fast .hle 0x1000#32 0x13#32 [] []) 32 0xED900F00
      [(.r15, 0x1008#32)] 0x13#32 [] (fun c => c.diag == some ⟨.unrecognized, 0xED900F00#32, 0x1000#32⟩) = true := by decide

/-- LSL r0, r1, #0 (95_test_vectors.md). -/
theorem test_thumb_lsl_r0_r1_0 :
    ends (start .fast .hle 0x1000#32 0x2000003F#32 [(.r1, 0x80000000#32)] []) 16 0x0008
      [(.r0, 0x80000000#32), (.r15, 0x1006#32)] 0xA000003F#32 [] (fun _ => true) = true := by decide

/-- LSL r0, r1 (r1 = 32) (95_test_vectors.md). -/
theorem test_thumb_lsl_r0_r1_r1_32 :
    ends (start .fast .hle 0x1000#32 0x2000003F#32 [(.r0, 0x1#32), (.r1, 0x20#32)] []) 16 0x4088
      [(.r0, 0x0#32), (.r15, 0x1006#32)] 0x4000003F#32 [] (fun _ => true) = true := by decide

/-- LSR r0, r1, #0 (means 32) (95_test_vectors.md). -/
theorem test_thumb_lsr_r0_r1_0_means_32 :
    ends (start .fast .hle 0x1000#32 0x3F#32 [(.r1, 0x80000000#32)] []) 16 0x0808
      [(.r0, 0x0#32), (.r15, 0x1006#32)] 0x6000003F#32 [] (fun _ => true) = true := by decide

/-- LSR r0, r1 (r1 = 32) (95_test_vectors.md). -/
theorem test_thumb_lsr_r0_r1_r1_32 :
    ends (start .fast .hle 0x1000#32 0x3F#32 [(.r0, 0x80000000#32), (.r1, 0x20#32)] []) 16 0x40C8
      [(.r0, 0x0#32), (.r15, 0x1006#32)] 0x6000003F#32 [] (fun _ => true) = true := by decide

/-- ASR r0, r1, #0 (means 32) (95_test_vectors.md). -/
theorem test_thumb_asr_r0_r1_0_means_32 :
    ends (start .fast .hle 0x1000#32 0x3F#32 [(.r1, 0x80000000#32)] []) 16 0x1008
      [(.r0, 0xFFFFFFFF#32), (.r15, 0x1006#32)] 0xA000003F#32 [] (fun _ => true) = true := by decide

/-- ASR r0, r1 (r1 = 40) (95_test_vectors.md). -/
theorem test_thumb_asr_r0_r1_r1_40 :
    ends (start .fast .hle 0x1000#32 0x3F#32 [(.r0, 0x80000000#32), (.r1, 0x28#32)] []) 16 0x4108
      [(.r0, 0xFFFFFFFF#32), (.r15, 0x1006#32)] 0xA000003F#32 [] (fun _ => true) = true := by decide

/-- ADD r0, r1, r2 (95_test_vectors.md). -/
theorem test_thumb_add_r0_r1_r2 :
    ends (start .fast .hle 0x1000#32 0x3F#32 [(.r1, 0xFFFFFFFF#32), (.r2, 0x1#32)] []) 16 0x1888
      [(.r0, 0x0#32), (.r15, 0x1006#32)] 0x6000003F#32 [] (fun _ => true) = true := by decide

/-- ADD sp, #508 (95_test_vectors.md). -/
theorem test_thumb_add_sp_508 :
    ends (start .fast .hle 0x1000#32 0x3F#32 [(.r13Usr, 0x3000#32)] []) 16 0xB07F
      [(.r13Usr, 0x31FC#32), (.r15, 0x1006#32)] 0x3F#32 [] (fun _ => true) = true := by decide

/-- SUB r0, r1, r2 (95_test_vectors.md). -/
theorem test_thumb_sub_r0_r1_r2 :
    ends (start .fast .hle 0x1000#32 0x3F#32 [(.r1, 0x1#32), (.r2, 0x2#32)] []) 16 0x1A88
      [(.r0, 0xFFFFFFFF#32), (.r15, 0x1006#32)] 0x8000003F#32 [] (fun _ => true) = true := by decide

/-- SUB sp, #4 (ADD sp, #-4) (95_test_vectors.md). -/
theorem test_thumb_sub_sp_4_add_sp_4 :
    ends (start .fast .hle 0x1000#32 0x3F#32 [(.r13Usr, 0x3000#32)] []) 16 0xB081
      [(.r13Usr, 0x2FFC#32), (.r15, 0x1006#32)] 0x3F#32 [] (fun _ => true) = true := by decide

/-- MOV r0, #0 (95_test_vectors.md). -/
theorem test_thumb_mov_r0_0 :
    ends (start .fast .hle 0x1000#32 0x2000003F#32 [(.r0, 0x5#32)] []) 16 0x2000
      [(.r0, 0x0#32), (.r15, 0x1006#32)] 0x6000003F#32 [] (fun _ => true) = true := by decide

/-- MOV r0, r1 (both low: unpredictable) (95_test_vectors.md). -/
theorem test_thumb_mov_r0_r1_both_low_unpredictable :
    ends (start .fast .hle 0x1000#32 0x3F#32 [] []) 16 0x4608
      [(.r15, 0x1004#32)] 0x3F#32 [] (fun c => c.diag == some ⟨.unrecognized, 0x4608#32, 0x1000#32⟩) = true := by decide

/-- CMP r0, #5 (r0 = 3) (95_test_vectors.md). -/
theorem test_thumb_cmp_r0_5_r0_3 :
    ends (start .fast .hle 0x1000#32 0x3F#32 [(.r0, 0x3#32)] []) 16 0x2805
      [(.r15, 0x1006#32)] 0x8000003F#32 [] (fun _ => true) = true := by decide

/-- CMP pc, r0 (Rd = 15) (95_test_vectors.md). -/
theorem test_thumb_cmp_pc_r0_rd_15 :
    ends (start .fast .hle 0x1000#32 0x3F#32 [] []) 16 0x4587
      [(.r15, 0x1004#32)] 0x3F#32 [] (fun c => c.diag == some ⟨.unrecognized, 0x4587#32, 0x1000#32⟩) = true := by decide

/-- AND r0, r1 (95_test_vectors.md). -/
theorem test_thumb_and_r0_r1 :
    ends (start .fast .hle 0x1000#32 0x3F#32 [(.r0, 0xF0#32), (.r1, 0x3C#32)] []) 16 0x4008
      [(.r0, 0x30#32), (.r15, 0x1006#32)] 0x3F#32 [] (fun _ => true) = true := by decide

/-- EOR r0, r1 (95_test_vectors.md). -/
theorem test_thumb_eor_r0_r1 :
    ends (start .fast .hle 0x1000#32 0x3F#32 [(.r0, 0xFF#32), (.r1, 0xFF#32)] []) 16 0x4048
      [(.r0, 0x0#32), (.r15, 0x1006#32)] 0x4000003F#32 [] (fun _ => true) = true := by decide

/-- ADC r0, r1 (C = 1) (95_test_vectors.md). -/
theorem test_thumb_adc_r0_r1_c_1 :
    ends (start .fast .hle 0x1000#32 0x2000003F#32 [(.r0, 0xFFFFFFFE#32), (.r1, 0x1#32)] []) 16 0x4148
      [(.r0, 0x0#32), (.r15, 0x1006#32)] 0x6000003F#32 [] (fun _ => true) = true := by decide

/-- SBC r0, r1 (C = 0) (95_test_vectors.md). -/
theorem test_thumb_sbc_r0_r1_c_0 :
    ends (start .fast .hle 0x1000#32 0x3F#32 [(.r0, 0x5#32), (.r1, 0x2#32)] []) 16 0x4188
      [(.r0, 0x2#32), (.r15, 0x1006#32)] 0x2000003F#32 [] (fun _ => true) = true := by decide

/-- ROR r0, r1 (r1 = 8) (95_test_vectors.md). -/
theorem test_thumb_ror_r0_r1_r1_8 :
    ends (start .fast .hle 0x1000#32 0x3F#32 [(.r0, 0xFF#32), (.r1, 0x8#32)] []) 16 0x41C8
      [(.r0, 0xFF000000#32), (.r15, 0x1006#32)] 0xA000003F#32 [] (fun _ => true) = true := by decide

/-- ROR r0, r1 (r1 = 0x20) (95_test_vectors.md). -/
theorem test_thumb_ror_r0_r1_r1_0x20 :
    ends (start .fast .hle 0x1000#32 0x3F#32 [(.r0, 0x80000001#32), (.r1, 0x20#32)] []) 16 0x41C8
      [(.r0, 0x80000001#32), (.r15, 0x1006#32)] 0xA000003F#32 [] (fun _ => true) = true := by decide

/-- TST r0, r1 (95_test_vectors.md). -/
theorem test_thumb_tst_r0_r1 :
    ends (start .fast .hle 0x1000#32 0x3F#32 [(.r0, 0xF0#32), (.r1, 0xF#32)] []) 16 0x4208
      [(.r15, 0x1006#32)] 0x4000003F#32 [] (fun _ => true) = true := by decide

/-- NEG r0, r1 (r1 = 0) (95_test_vectors.md). -/
theorem test_thumb_neg_r0_r1_r1_0 :
    ends (start .fast .hle 0x1000#32 0x3F#32 [(.r1, 0x0#32)] []) 16 0x4248
      [(.r0, 0x0#32), (.r15, 0x1006#32)] 0x6000003F#32 [] (fun _ => true) = true := by decide

/-- NEG r0, r1 (r1 = 0x80000000) (95_test_vectors.md). -/
theorem test_thumb_neg_r0_r1_r1_0x80000000 :
    ends (start .fast .hle 0x1000#32 0x3F#32 [(.r1, 0x80000000#32)] []) 16 0x4248
      [(.r0, 0x80000000#32), (.r15, 0x1006#32)] 0x9000003F#32 [] (fun _ => true) = true := by decide

/-- CMN r0, r1 (95_test_vectors.md). -/
theorem test_thumb_cmn_r0_r1 :
    ends (start .fast .hle 0x1000#32 0x3F#32 [(.r0, 0xFFFFFFFF#32), (.r1, 0x1#32)] []) 16 0x42C8
      [(.r15, 0x1006#32)] 0x6000003F#32 [] (fun _ => true) = true := by decide

/-- ORR r0, r1 (95_test_vectors.md). -/
theorem test_thumb_orr_r0_r1 :
    ends (start .fast .hle 0x1000#32 0x3F#32 [(.r0, 0xF0#32), (.r1, 0xF#32)] []) 16 0x4308
      [(.r0, 0xFF#32), (.r15, 0x1006#32)] 0x3F#32 [] (fun _ => true) = true := by decide

/-- MUL r0, r1 (95_test_vectors.md). -/
theorem test_thumb_mul_r0_r1 :
    ends (start .fast .hle 0x1000#32 0x2000003F#32 [(.r0, 0x10000#32), (.r1, 0x10000#32)] []) 16 0x4348
      [(.r0, 0x0#32), (.r15, 0x1006#32)] 0x6000003F#32 [] (fun _ => true) = true := by decide

/-- BIC r0, r1 (95_test_vectors.md). -/
theorem test_thumb_bic_r0_r1 :
    ends (start .fast .hle 0x1000#32 0x3F#32 [(.r0, 0xFF#32), (.r1, 0xF#32)] []) 16 0x4388
      [(.r0, 0xF0#32), (.r15, 0x1006#32)] 0x3F#32 [] (fun _ => true) = true := by decide

/-- MVN r0, r1 (95_test_vectors.md). -/
theorem test_thumb_mvn_r0_r1 :
    ends (start .fast .hle 0x1000#32 0x3F#32 [(.r1, 0x0#32)] []) 16 0x43C8
      [(.r0, 0xFFFFFFFF#32), (.r15, 0x1006#32)] 0x8000003F#32 [] (fun _ => true) = true := by decide

/-- BX r0 (to ARM) (95_test_vectors.md). -/
theorem test_thumb_bx_r0_to_arm :
    ends (start .fast .hle 0x1000#32 0x3F#32 [(.r0, 0x3000#32)] []) 16 0x4700
      [(.r15, 0x3000#32)] 0x1F#32 [] (fun _ => true) = true := by decide

/-- BX pc (95_test_vectors.md). -/
theorem test_thumb_bx_pc :
    ends (start .fast .hle 0x1000#32 0x3F#32 [] []) 16 0x4778
      [(.r15, 0x1004#32)] 0x1F#32 [] (fun _ => true) = true := by decide

/-- BLX r0 (95_test_vectors.md). -/
theorem test_thumb_blx_r0 :
    ends (start .fast .hle 0x1000#32 0x3F#32 [(.r0, 0x3000#32)] []) 16 0x4780
      [(.r14Usr, 0x1003#32), (.r15, 0x3000#32)] 0x1F#32 [] (fun _ => true) = true := by decide

/-- BLX suffix with h[0] = 1 (95_test_vectors.md). -/
theorem test_thumb_blx_suffix_with_h_0_1 :
    ends (start .fast .hle 0x1000#32 0x3F#32 [(.r14Usr, 0x2004#32)] []) 16 0xE803
      [(.r15, 0x1004#32)] 0x3F#32 [] (fun c => c.diag == some ⟨.unrecognized, 0xE803#32, 0x1000#32⟩) = true := by decide

/-- LDR r0, [pc, #4] (95_test_vectors.md). -/
theorem test_thumb_ldr_r0_pc_4 :
    ends (start .fast .hle 0x1000#32 0x3F#32 [] [(0x1008#32, 0xCAFEF00D#32)]) 16 0x4801
      [(.r0, 0xCAFEF00D#32), (.r15, 0x1006#32)] 0x3F#32 [] (fun _ => true) = true := by decide

/-- LDR r0, [sp, #1020] (95_test_vectors.md). -/
theorem test_thumb_ldr_r0_sp_1020 :
    ends (start .fast .hle 0x1000#32 0x3F#32 [(.r13Usr, 0x3000#32)] [(0x33FC#32, 0x12121212#32)]) 16 0x98FF
      [(.r0, 0x12121212#32), (.r15, 0x1006#32)] 0x3F#32 [] (fun _ => true) = true := by decide

/-- STR r0, [r1, r2] (95_test_vectors.md). -/
theorem test_thumb_str_r0_r1_r2 :
    ends (start .fast .hle 0x1000#32 0x3F#32 [(.r0, 0xAABBCCDD#32), (.r1, 0x2000#32), (.r2, 0x4#32)] []) 16 0x5088
      [(.r15, 0x1006#32)] 0x3F#32 [(0x2004#32, .word, 0xAABBCCDD#32)] (fun _ => true) = true := by decide

/-- STR r0, [sp, #8] (95_test_vectors.md). -/
theorem test_thumb_str_r0_sp_8 :
    ends (start .fast .hle 0x1000#32 0x3F#32 [(.r0, 0x9#32), (.r13Usr, 0x3000#32)] []) 16 0x9002
      [(.r15, 0x1006#32)] 0x3F#32 [(0x3008#32, .word, 0x9#32)] (fun _ => true) = true := by decide

/-- STRB r0, [r1, r2] (95_test_vectors.md). -/
theorem test_thumb_strb_r0_r1_r2 :
    ends (start .fast .hle 0x1000#32 0x3F#32 [(.r0, 0xAABBCCDD#32), (.r1, 0x2000#32), (.r2, 0x1#32)] []) 16 0x5488
      [(.r15, 0x1006#32)] 0x3F#32 [(0x2001#32, .byte, 0xDD#32)] (fun _ => true) = true := by decide

/-- STRB r0, [r1, #31] (95_test_vectors.md). -/
theorem test_thumb_strb_r0_r1_31 :
    ends (start .fast .hle 0x1000#32 0x3F#32 [(.r0, 0x1FF#32), (.r1, 0x2000#32)] []) 16 0x77C8
      [(.r15, 0x1006#32)] 0x3F#32 [(0x201F#32, .byte, 0xFF#32)] (fun _ => true) = true := by decide

/-- LDRB r0, [r1, r2] (95_test_vectors.md). -/
theorem test_thumb_ldrb_r0_r1_r2 :
    ends (start .fast .hle 0x1000#32 0x3F#32 [(.r1, 0x2004#32), (.r2, 0x3#32)] [(0x2000#32, 0x44332211#32), (0x2004#32, 0x88776655#32), (0x2008#32, 0xCCBBAA99#32)]) 16 0x5C88
      [(.r0, 0x88#32), (.r15, 0x1006#32)] 0x3F#32 [] (fun _ => true) = true := by decide

/-- LDRB r0, [r1, #5] (95_test_vectors.md). -/
theorem test_thumb_ldrb_r0_r1_5 :
    ends (start .fast .hle 0x1000#32 0x3F#32 [(.r1, 0x2000#32)] [(0x2000#32, 0x44332211#32), (0x2004#32, 0x88776655#32), (0x2008#32, 0xCCBBAA99#32)]) 16 0x7948
      [(.r0, 0x66#32), (.r15, 0x1006#32)] 0x3F#32 [] (fun _ => true) = true := by decide

/-- STRH r0, [r1, r2] (95_test_vectors.md). -/
theorem test_thumb_strh_r0_r1_r2 :
    ends (start .fast .hle 0x1000#32 0x3F#32 [(.r0, 0x12345678#32), (.r1, 0x2000#32), (.r2, 0x2#32)] []) 16 0x5288
      [(.r15, 0x1006#32)] 0x3F#32 [(0x2002#32, .half, 0x5678#32)] (fun _ => true) = true := by decide

/-- STRH r0, [r1, #62] (95_test_vectors.md). -/
theorem test_thumb_strh_r0_r1_62 :
    ends (start .fast .hle 0x1000#32 0x3F#32 [(.r0, 0xBEEF#32), (.r1, 0x2000#32)] []) 16 0x87C8
      [(.r15, 0x1006#32)] 0x3F#32 [(0x203E#32, .half, 0xBEEF#32)] (fun _ => true) = true := by decide

/-- LDRSB r0, [r1, r2] (95_test_vectors.md). -/
theorem test_thumb_ldrsb_r0_r1_r2 :
    ends (start .fast .hle 0x1000#32 0x3F#32 [(.r1, 0x2004#32), (.r2, 0x3#32)] [(0x2000#32, 0x44332211#32), (0x2004#32, 0x88776655#32), (0x2008#32, 0xCCBBAA99#32)]) 16 0x5688
      [(.r0, 0xFFFFFF88#32), (.r15, 0x1006#32)] 0x3F#32 [] (fun _ => true) = true := by decide

/-- LDRH r0, [r1, r2] (95_test_vectors.md). -/
theorem test_thumb_ldrh_r0_r1_r2 :
    ends (start .fast .hle 0x1000#32 0x3F#32 [(.r1, 0x2004#32), (.r2, 0x2#32)] [(0x2000#32, 0x44332211#32), (0x2004#32, 0x88776655#32), (0x2008#32, 0xCCBBAA99#32)]) 16 0x5A88
      [(.r0, 0x8877#32), (.r15, 0x1006#32)] 0x3F#32 [] (fun _ => true) = true := by decide

/-- LDRH r0, [r1, #6] (95_test_vectors.md). -/
theorem test_thumb_ldrh_r0_r1_6 :
    ends (start .fast .hle 0x1000#32 0x3F#32 [(.r1, 0x2000#32)] [(0x2000#32, 0x44332211#32), (0x2004#32, 0x88776655#32), (0x2008#32, 0xCCBBAA99#32)]) 16 0x88C8
      [(.r0, 0x8877#32), (.r15, 0x1006#32)] 0x3F#32 [] (fun _ => true) = true := by decide

/-- LDRSH r0, [r1, r2] (95_test_vectors.md). -/
theorem test_thumb_ldrsh_r0_r1_r2 :
    ends (start .fast .hle 0x1000#32 0x3F#32 [(.r1, 0x2004#32), (.r2, 0x2#32)] [(0x2000#32, 0x44332211#32), (0x2004#32, 0x88776655#32), (0x2008#32, 0xCCBBAA99#32)]) 16 0x5E88
      [(.r0, 0xFFFF8877#32), (.r15, 0x1006#32)] 0x3F#32 [] (fun _ => true) = true := by decide

/-- LDRSH r0, [r1, r2] (SLOW, odd) (95_test_vectors.md). -/
theorem test_thumb_slow_ldrsh_r0_r1_r2_slow_odd :
    ends (start .slow .hle 0x1000#32 0x3F#32 [(.r1, 0x2004#32), (.r2, 0x3#32)] [(0x2000#32, 0x44332211#32), (0x2004#32, 0x88776655#32), (0x2008#32, 0xCCBBAA99#32)]) 16 0x5E88
      [(.r0, 0xFFFFFF88#32), (.r15, 0x1006#32)] 0x3F#32 [] (fun _ => true) = true := by decide

/-- PUSH {r0, r1, lr} (95_test_vectors.md). -/
theorem test_thumb_push_r0_r1_lr :
    ends (start .fast .hle 0x1000#32 0x3F#32 [(.r0, 0x1#32), (.r1, 0x2#32), (.r14Usr, 0x1235#32), (.r13Usr, 0x3000#32)] []) 16 0xB503
      [(.r13Usr, 0x2FF4#32), (.r15, 0x1006#32)] 0x3F#32 [(0x2FF4#32, .word, 0x1#32), (0x2FF8#32, .word, 0x2#32), (0x2FFC#32, .word, 0x1235#32)] (fun _ => true) = true := by decide

/-- PUSH {} (empty) (95_test_vectors.md). -/
theorem test_thumb_push_empty :
    ends (start .fast .hle 0x1000#32 0x3F#32 [(.r13Usr, 0x3000#32)] []) 16 0xB400
      [(.r15, 0x1004#32)] 0x3F#32 [] (fun c => c.diag == some ⟨.unrecognized, 0xB400#32, 0x1000#32⟩) = true := by decide

/-- POP {r0, pc} (FAST) (95_test_vectors.md). -/
theorem test_thumb_pop_r0_pc_fast :
    ends (start .fast .hle 0x1000#32 0x3F#32 [(.r13Usr, 0x3000#32)] [(0x3000#32, 0x7#32), (0x3004#32, 0x2001#32)]) 16 0xBD01
      [(.r0, 0x7#32), (.r13Usr, 0x3008#32), (.r15, 0x2000#32)] 0x3F#32 [] (fun _ => true) = true := by decide

/-- POP {r0, pc} (SLOW) (95_test_vectors.md). -/
theorem test_thumb_slow_pop_r0_pc_slow :
    ends (start .slow .hle 0x1000#32 0x3F#32 [(.r13Usr, 0x3000#32)] [(0x3000#32, 0x7#32), (0x3004#32, 0x2000#32)]) 16 0xBD01
      [(.r0, 0x7#32), (.r13Usr, 0x3008#32), (.r15, 0x2000#32)] 0x3F#32 [] (fun _ => true) = true := by decide

/-- STMIA r0!, {r0, r1} (base lowest) (95_test_vectors.md). -/
theorem test_thumb_stmia_r0_r0_r1_base_lowest :
    ends (start .fast .hle 0x1000#32 0x3F#32 [(.r0, 0x2000#32), (.r1, 0x5#32)] []) 16 0xC003
      [(.r0, 0x2008#32), (.r15, 0x1006#32)] 0x3F#32 [(0x2000#32, .word, 0x2000#32), (0x2004#32, .word, 0x5#32)] (fun _ => true) = true := by decide

/-- STMIA r1!, {r0, r1} (base not lowest) (95_test_vectors.md). -/
theorem test_thumb_stmia_r1_r0_r1_base_not_lowest :
    ends (start .fast .hle 0x1000#32 0x3F#32 [(.r1, 0x2000#32)] []) 16 0xC103
      [(.r15, 0x1004#32)] 0x3F#32 [] (fun c => c.diag == some ⟨.unrecognized, 0xC103#32, 0x1000#32⟩) = true := by decide

/-- LDMIA r0!, {r1, r2} (95_test_vectors.md). -/
theorem test_thumb_ldmia_r0_r1_r2 :
    ends (start .fast .hle 0x1000#32 0x3F#32 [(.r0, 0x2000#32)] [(0x2000#32, 0x44332211#32), (0x2004#32, 0x88776655#32), (0x2008#32, 0xCCBBAA99#32)]) 16 0xC806
      [(.r0, 0x2008#32), (.r1, 0x44332211#32), (.r2, 0x88776655#32), (.r15, 0x1006#32)] 0x3F#32 [] (fun _ => true) = true := by decide

/-- LDMIA r0!, {r0, r1} (base in list) (95_test_vectors.md). -/
theorem test_thumb_ldmia_r0_r0_r1_base_in_list :
    ends (start .fast .hle 0x1000#32 0x3F#32 [(.r0, 0x2000#32)] []) 16 0xC803
      [(.r15, 0x1004#32)] 0x3F#32 [] (fun c => c.diag == some ⟨.unrecognized, 0xC803#32, 0x1000#32⟩) = true := by decide

/-- BEQ +4 (Z = 1) (95_test_vectors.md). -/
theorem test_thumb_beq_4_z_1 :
    ends (start .fast .hle 0x1000#32 0x4000003F#32 [] []) 16 0xD002
      [(.r15, 0x1008#32)] 0x4000003F#32 [] (fun _ => true) = true := by decide

/-- BEQ +4 (Z = 0, not taken) (95_test_vectors.md). -/
theorem test_thumb_beq_4_z_0_not_taken :
    ends (start .fast .hle 0x1000#32 0x3F#32 [] []) 16 0xD002
      [(.r15, 0x1006#32)] 0x3F#32 [] (fun _ => true) = true := by decide

/-- BNE -4 (Z = 0) (95_test_vectors.md). -/
theorem test_thumb_bne_4_z_0 :
    ends (start .fast .hle 0x1000#32 0x3F#32 [] []) 16 0xD1FC
      [(.r15, 0xFFC#32)] 0x3F#32 [] (fun _ => true) = true := by decide

/-- B<cond> with cond = 1110 (95_test_vectors.md). -/
theorem test_thumb_b_cond_with_cond_1110 :
    ends (start .fast .hle 0x1000#32 0x3F#32 [] []) 16 0xDE00
      [(.r15, 0x1004#32)] 0x3F#32 [] (fun c => c.diag == some ⟨.unrecognized, 0xDE00#32, 0x1000#32⟩) = true := by decide

/-- B +0x7FE (largest forward) (95_test_vectors.md). -/
theorem test_thumb_b_0x7fe_largest_forward :
    ends (start .fast .hle 0x1000#32 0x3F#32 [] []) 16 0xE3FF
      [(.r15, 0x1802#32)] 0x3F#32 [] (fun _ => true) = true := by decide

/-- SWI 0x06 (Halt) (95_test_vectors.md). -/
theorem test_thumb_swi_0x06_halt :
    ends (start .fast .hle 0x1000#32 0x3F#32 [] []) 16 0xDF06
      [(.r15, 0x1006#32)] 0x3F#32 [] (fun c => c.idleState == .halted) = true := by decide

/-- SWI 0x06 (TRAP) (95_test_vectors.md). -/
theorem test_thumb_swi_0x06_trap :
    ends (start .fast .trap 0x1000#32 0x3F#32 [] []) 16 0xDF06
      [(.r14Svc, 0x1002#32), (.r15, 0xFFFF0008#32)] 0x93#32 [] (fun c => c.spsrSvc == 0x3F#32) = true := by decide

/-- BL prefix, offset_hi = 1 (95_test_vectors.md). -/
theorem test_thumb_bl_prefix_offset_hi_1 :
    ends (start .fast .hle 0x1000#32 0x3F#32 [] []) 16 0xF001
      [(.r14Usr, 0x2004#32), (.r15, 0x1006#32)] 0x3F#32 [] (fun _ => true) = true := by decide

/-- BL suffix, r14 = 0x2004, offset_lo = 2 (95_test_vectors.md). -/
theorem test_thumb_bl_suffix_r14_0x2004_offset_lo_2 :
    ends (start .fast .hle 0x1000#32 0x3F#32 [(.r14Usr, 0x2004#32)] []) 16 0xF802
      [(.r14Usr, 0x1003#32), (.r15, 0x2008#32)] 0x3F#32 [] (fun _ => true) = true := by decide

/-! ## What does not decode, and what an ignored field does -/

theorem test_reject_stc : rejects .fast false 0xEC001000#32 = true := by decide
theorem test_reject_cdp : rejects .fast false 0xEE000000#32 = true := by decide
theorem test_reject_mcr_p14 : rejects .fast false 0xEE010E10#32 = true := by decide
theorem test_reject_mcr_slow : rejects .slow false 0xEE010F10#32 = true := by decide
theorem test_reject_clz_slow : rejects .slow false 0xE16F0F11#32 = true := by decide
theorem test_reject_blx_register_slow : rejects .slow false 0xE12FFF31#32 = true := by decide
theorem test_reject_ldrd_slow : rejects .slow false 0xE1C200D0#32 = true := by decide
theorem test_reject_undefined_space : rejects .fast false 0xE6000010#32 = true := by decide
theorem test_reject_thumb_bkpt : rejects .fast true 0xBE00#32 = true := by decide
theorem test_reject_thumb_cond_al : rejects .fast true 0xDE00#32 = true := by decide
theorem test_reject_thumb_blx_suffix_odd : rejects .fast true 0xE801#32 = true := by decide

/-- The Rd field of TST is ignored (30_encoding.md R105): the encoder writes it as 0. -/
theorem test_ignored_rd_of_tst :
    (match decodeWord .fast false 0xE1115002#32 with
      | .ok i => decide (i = .tstShiftImm .al .r1 0#5 .lsl .r2) && encode i == 0xE1110002#32
      | .error _ => false) = true := by decide

/-- The words of Thumb format 19 that begin 11101 are BLX suffixes on FAST only (30_encoding.md R97). -/
theorem test_blx_suffix_slow : rejects .slow true 0xE802#32 = true := by decide

/-! ## The host's interface -/

theorem test_table_word_arm : decodeTableWord 32 0xE0910002 = some (.addShiftImm .al true .r1 .r0 0#5 .lsl .r2) := by
  decide
theorem test_table_word_thumb : decodeTableWord 16 0xBD01 = some (.tPop true 1#8) := by decide
theorem test_table_word_reject : decodeTableWord 32 0xEE000000 = none := by decide

/-- The first step after reset executes the placed instruction: MOV r0, #5 (95_test_vectors.md, program 3.1). -/
theorem test_first_step_runs_placed_word :
    (match step (State.reset.withFetchWord 32 0xE3A00005) with
      | .next t => t.cores.fast.regs.r0 == 5#32 && t.cores.fast.dbgTag == .A_DP
      | _ => false) = true := by decide

/-! ## The shifter where its clauses meet -/

/-- LSL at 0, 31, 32 and 33 (40_alu_shifter.md R121). -/
theorem test_lsl_bounds :
    shiftOp .lsl 0x80000003#32 0 true = (0x80000003#32, none)
      ∧ shiftOp .lsl 0x80000003#32 31 false = (0x80000000#32, some true)
      ∧ shiftOp .lsl 0x80000003#32 32 true = (0#32, some false)
      ∧ shiftOp .lsl 0x80000003#32 33 true = (0#32, some false) := by decide

/-- LSR at 0, 31, 32 and 33 (40_alu_shifter.md R122). -/
theorem test_lsr_bounds :
    shiftOp .lsr 0xC0000000#32 0 false = (0#32, some true) ∧ shiftOp .lsr 0xC0000000#32 31 false = (1#32, some true)
      ∧ shiftOp .lsr 0xC0000000#32 32 false = (0#32, some true)
      ∧ shiftOp .lsr 0xC0000000#32 33 false = (0#32, some false) := by decide

/-- ASR at 0, 31, 32 and 33 (40_alu_shifter.md R123). -/
theorem test_asr_bounds :
    shiftOp .asr 0x80000000#32 0 false = (0xFFFFFFFF#32, some true)
      ∧ shiftOp .asr 0x80000000#32 31 false = (0xFFFFFFFF#32, some false)
      ∧ shiftOp .asr 0x80000000#32 32 false = (0xFFFFFFFF#32, some true)
      ∧ shiftOp .asr 0x7FFFFFFF#32 33 true = (0#32, some false) := by decide

/-- ROR at 0 (RRX), 1, 32 and 33 (40_alu_shifter.md R124). -/
theorem test_ror_bounds :
    shiftOp .ror 3#32 0 true = (0x80000001#32, some true) ∧ shiftOp .ror 3#32 1 false = (0x80000001#32, some true)
      ∧ shiftOp .ror 0x80000001#32 32 false = (0x80000001#32, some true)
      ∧ shiftOp .ror 2#32 33 true = (1#32, some false) := by decide

/-! ## Memory and the scheduler -/

/-- Bytes of a stored word, little-endian; a 0 byte is not listed. -/
theorem test_memory_store_word : memStore [] 0x10#32 .word 0x11003344#32 = [(0x10, 0x44#8), (0x11, 0x33#8), (0x13, 0x11#8)] := by
  decide

/-- A word at the top of memory wraps to address 0 (20_memory.md R62). -/
theorem test_memory_wraps : memLoad (memStore [] 0xFFFFFFFF#32 .half 0xAABB#32) 0xFFFFFFFF#32 .half = 0xAABB#32 := by decide

/-- A fill of FAST at budget 0 costs 1 and hands over with budget 1 (60_exceptions.md R381, R385). -/
theorem test_handoff_after_first_tick :
    (match step State.reset with
      | .next t => t.busOwner == .slow && decide (t.budget = 1) && t.cores.fast.dbgTag == .FILLING
      | _ => false) = true := by decide

/-! ## Witnesses: concrete states and operands that meet the hypotheses of the statements -/

/-- A machine in SYS mode, ARM or Thumb state, with nothing in memory. -/
def bare (thumb : Bool) : State := start .fast .hle 0x1000#32 (if thumb then 0x3F#32 else 0x1F#32) [] []

/-- `Runs`, as a test. -/
def runsIn (s : State) (i : Instr) : Bool :=
  i.isThumb == psrT s.cur.cpsr && i.recognizedOn s.turn && i.passes s.cur.cpsr && s.cur.execSlot.rmask == 0#16

theorem runs_of {s : State} {i : Instr} (h : runsIn s i = true) : Runs i s := by
  simpa [runsIn, Runs, and_assoc] using h

theorem some_of_any {α : Type} {o : Option α} {q : α → Bool} (h : o.any q = true) : ∃ x, o = some x ∧ q x = true := by
  cases o with
  | none => simp at h
  | some x => exact ⟨x, rfl, h⟩

/-- A table whose instructions all pass a test and run: for each, the test's witness. -/
theorem witness_of_table {α : Type} {f : Instr → CoreState → Option α} {q : α → Bool} {l : List (Nat × Instr)}
    (h : (l.all fun p => (f p.2 (bare p.2.isThumb).cur).any q && runsIn (bare p.2.isThumb) p.2) = true) :
    ∀ p ∈ l, (∃ x, f p.2 (bare p.2.isThumb).cur = some x ∧ q x = true) ∧ Runs p.2 (bare p.2.isThumb) := by
  intro p hp
  have hb := List.all_eq_true.mp h p hp
  rw [Bool.and_eq_true] at hb
  exact ⟨some_of_any hb.1, runs_of hb.2⟩

/-- Every instruction of the table meets the hypotheses of the statement, at its own sample. -/
theorem witness_AluWritesItsResult : ∀ p ∈ aluWords,
    (∃ x, p.2.alu? (bare p.2.isThumb).cur = some x ∧ (x.dest.any fun r => decide (r ≠ .r15)) = true)
      ∧ Runs p.2 (bare p.2.isThumb) :=
  witness_of_table (by decide)

theorem witness_ComparesSetFlags : ∀ p ∈ compareWords,
    (∃ x, p.2.alu? (bare p.2.isThumb).cur = some x ∧ x.dest.isNone = true) ∧ Runs p.2 (bare p.2.isThumb) :=
  witness_of_table (by decide)

theorem witness_PlainWrites : ∀ p ∈ plainWords,
    (∃ x, p.2.write? (bare p.2.isThumb).cur = some x ∧ (fun _ => true) x = true) ∧ Runs p.2 (bare p.2.isThumb) :=
  witness_of_table (by decide)

theorem witness_MsrWrites : ∀ p ∈ msrWords,
    (∃ x, p.2.msr? (bare p.2.isThumb).cur = some x ∧ (fun _ => true) x = true) ∧ Runs p.2 (bare p.2.isThumb) :=
  witness_of_table (by decide)

theorem witness_MultiplyWrites : ∀ p ∈ mulWords,
    (∃ x, p.2.mul32? (bare p.2.isThumb).cur = some x ∧ (fun _ => true) x = true) ∧ Runs p.2 (bare p.2.isThumb) :=
  witness_of_table (by decide)

theorem witness_LongMultiplyWrites : ∀ p ∈ mullWords,
    (∃ x, p.2.mul64? (bare p.2.isThumb).cur = some x ∧ (fun _ => true) x = true) ∧ Runs p.2 (bare p.2.isThumb) :=
  witness_of_table (by decide)

theorem witness_StickyWrites : ∀ p ∈ stickyWords,
    (∃ x, p.2.sticky? (bare p.2.isThumb).cur = some x ∧ (fun _ => true) x = true) ∧ Runs p.2 (bare p.2.isThumb) :=
  witness_of_table (by decide)

theorem witness_LoadsWriteRd : ∀ p ∈ loadWords,
    (∃ l, p.2.load? (bare p.2.isThumb).cur = some l ∧ decide (l.rd ≠ .r15) = true) ∧ Runs p.2 (bare p.2.isThumb) :=
  witness_of_table (by decide)

/-- Memory of these states is in canonical form, as the storing statements ask. -/
theorem witness_bare_memory (thumb : Bool) : Memory.wf (bare thumb).mem = true := by
  cases thumb <;> decide

theorem witness_StoresWriteMemory : ∀ p ∈ storeWords,
    (∃ x, p.2.store? (bare p.2.isThumb).cur = some x ∧ (fun _ => true) x = true) ∧ Runs p.2 (bare p.2.isThumb) :=
  witness_of_table (by decide)

theorem witness_DoublewordTransfers :
    Runs (.ldrd .al .pre true .r5 .r8 (.imm 8#8)) (bare false)
      ∧ Runs (.strd .vc .post false .r5 .r8 (.reg .r12)) (bare false) :=
  ⟨runs_of (by decide), runs_of (by decide)⟩

theorem witness_SwapExchanges : Runs (.swp .al .r5 .r2 .r12) (bare false) ∧ Runs (.swpb .al .r5 .r2 .r2) (bare false) :=
  ⟨runs_of (by decide), runs_of (by decide)⟩

theorem witness_BlockLoads : ∀ p ∈ blockLoadWords,
    (∃ b, p.2.blockLoad? (bare p.2.isThumb).cur = some b ∧ (!listHas b.list .r15) = true) ∧ Runs p.2 (bare p.2.isThumb) :=
  witness_of_table (by decide)

theorem witness_BlockStores : ∀ p ∈ blockStoreWords,
    (∃ b, p.2.blockStore? (bare p.2.isThumb).cur = some b ∧ (fun _ => true) b = true) ∧ Runs p.2 (bare p.2.isThumb) :=
  witness_of_table (by decide)

theorem witness_BranchesTaken : ∀ p ∈ branchWords,
    (∃ b, p.2.branch? (bare p.2.isThumb).cur = some b ∧ (fun _ => true) b = true) ∧ Runs p.2 (bare p.2.isThumb) :=
  witness_of_table (by decide)

theorem witness_NoEffect_pld :
    (Instr.pld false true .r5 4#12).idleOn (bare false).cur ∧ Runs (.pld false true .r5 4#12) (bare false) :=
  ⟨trivial, runs_of (by decide)⟩

theorem witness_NoEffect_not_taken : (Instr.tBCond .eq 4#8).idleOn (bare true).cur ∧ Runs (.tBCond .eq 4#8) (bare true) :=
  ⟨by unfold Instr.idleOn; decide, runs_of (by decide)⟩

/-- A branch of format 5, MOV r15 and ADD r15, among the branches that are taken. -/
theorem witness_BranchesTaken_pc :
    ((Instr.tMovHi .r15 .r14).branch? (bare true).cur).isSome = true ∧ Runs (.tMovHi .r15 .r14) (bare true)
      ∧ ((Instr.tAddHi .r15 .r1).branch? (bare true).cur).isSome = true ∧ Runs (.tAddHi .r15 .r1) (bare true) :=
  ⟨by decide, runs_of (by decide), by decide, runs_of (by decide)⟩

/-- A machine in SVC mode with a saved status. -/
def inSvc (spsr : Word) : State :=
  (start .fast .hle 0x1000#32 0x13#32 [(.r14Svc, 0x2004#32)] []).onCur fun c => { c with spsrSvc := spsr }

theorem witness_DataProcessingIntoPc_branch :
    ∃ x, (Instr.movShiftImm .al false .r15 0#5 .lsl .r14).alu? (inSvc 0x10#32).cur = some x ∧ x.dest = some .r15
      ∧ x.flags = false ∧ Runs (.movShiftImm .al false .r15 0#5 .lsl .r14) (inSvc 0x10#32) :=
  ⟨_, rfl, rfl, rfl, runs_of (by decide)⟩

theorem witness_DataProcessingIntoPc_return :
    ∃ x, (Instr.movShiftImm .al true .r15 0#5 .lsl .r14).alu? (inSvc 0x10#32).cur = some x ∧ x.dest = some .r15
      ∧ x.flags = true ∧ psrLegal (inSvc 0x10#32).cur.getSpsr = true
      ∧ Runs (.movShiftImm .al true .r15 0#5 .lsl .r14) (inSvc 0x10#32) :=
  ⟨_, rfl, rfl, rfl, by decide, runs_of (by decide)⟩

theorem witness_DataProcessingIntoPc_illegal :
    ∃ x, (Instr.movShiftImm .al true .r15 0#5 .lsl .r14).alu? (inSvc 0#32).cur = some x ∧ x.dest = some .r15
      ∧ x.flags = true ∧ psrLegal (inSvc 0#32).cur.getSpsr = false
      ∧ Runs (.movShiftImm .al true .r15 0#5 .lsl .r14) (inSvc 0#32) :=
  ⟨_, rfl, rfl, rfl, by decide, runs_of (by decide)⟩

/-- MSR to cpsr with a legal new mode (IRQ), the same mode, and an illegal mode. -/
theorem witness_MsrWritesCpsr :
    (Instr.msrImm .al false 1#4 0#4 0x12#8).msr? (bare false).cur = some (false, 1#4, 0x12#32)
      ∧ Runs (.msrImm .al false 1#4 0#4 0x12#8) (bare false)
      ∧ psrLegal (msrValue .fast 0x1F#32 1#4 0x12#32) = true
      ∧ psrLegal (msrValue .fast 0x1F#32 8#4 0xF0000000#32) = true
      ∧ psrLegal (msrValue .fast 0x1F#32 1#4 0x14#32) = false :=
  ⟨by decide, runs_of (by decide), by decide, by decide, by decide⟩

theorem witness_MsrWritesSpsr :
    (Instr.msrImm .al true 9#4 0#4 0x10#8).msr? (inSvc 0#32).cur = some (true, 9#4, 0x10#32)
      ∧ Runs (.msrImm .al true 9#4 0#4 0x10#8) (inSvc 0#32) ∧ (inSvc 0#32).cur.mode = .svc :=
  ⟨by decide, runs_of (by decide), by decide⟩

/-- QADD at the two sides of the bound: the sum 0x7FFFFFFF + 1 sets Q, 0x7FFFFFFF + 0 does not. -/
theorem witness_StickyWrites_bounds :
    let s (v : Word) := start .fast .hle 0x1000#32 0x1F#32 [(.r1, 0x7FFFFFFF#32), (.r2, v)] []
    ((s 1#32).cur.reg .r1).toInt + ((s 1#32).cur.reg .r2).toInt = 2147483648
      ∧ ((s 0#32).cur.reg .r1).toInt + ((s 0#32).cur.reg .r2).toInt = 2147483647
      ∧ Runs (.qadd .al .r1 .r0 .r2) (s 1#32) ∧ Runs (.qadd .al .r1 .r0 .r2) (s 0#32) :=
  ⟨by decide, by decide, runs_of (by decide), runs_of (by decide)⟩

theorem witness_LoadsIntoPc :
    (∃ l, (Instr.ldrImm .al .offset true .r1 .r15 0#12).load? (bare false).cur = some l ∧ l.rd = .r15)
      ∧ Runs (.ldrImm .al .offset true .r1 .r15 0#12) (bare false)
      ∧ Runs (.ldrImm .al .offset true .r1 .r15 0#12) (start .slow .hle 0x1000#32 0x1F#32 [] []) :=
  ⟨⟨_, rfl, rfl⟩, runs_of (by decide), runs_of (by decide)⟩

theorem witness_BlockLoadsIntoPc :
    (∃ b, (Instr.tPop true 1#8).blockLoad? (bare true).cur = some b ∧ listHas b.list .r15 = true)
      ∧ Runs (.tPop true 1#8) (bare true)
      ∧ (∃ b, (Instr.ldm .al .ia false true .r13 0x8001#16).blockLoad? (bare false).cur = some b
          ∧ listHas b.list .r15 = true)
      ∧ Runs (.ldm .al .ia false true .r13 0x8001#16) (bare false) :=
  ⟨⟨_, rfl, by decide⟩, runs_of (by decide), ⟨_, rfl, by decide⟩, runs_of (by decide)⟩

/-- A load and a store of the user bank from SVC mode. -/
theorem witness_BlockLoads_user :
    ((Instr.ldm .al .ia true false .r1 0x6000#16).blockLoad? (inSvc 0#32).cur).isSome = true
      ∧ Runs (.ldm .al .ia true false .r1 0x6000#16) (inSvc 0#32)
      ∧ ((Instr.stm .al .ia true false .r1 0x6000#16).blockStore? (inSvc 0#32).cur).isSome = true
      ∧ Runs (.stm .al .ia true false .r1 0x6000#16) (inSvc 0#32) :=
  ⟨by decide, runs_of (by decide), by decide, runs_of (by decide)⟩

theorem witness_LdmReturns :
    listHas 0x8001#16 .r15 = true ∧ Runs (.ldm .al .ia true true .r13 0x8001#16) (inSvc 0x10#32)
      ∧ psrLegal (inSvc 0x10#32).cur.getSpsr = true
      ∧ Runs (.ldm .al .ia true true .r13 0x8001#16) (inSvc 0#32) ∧ psrLegal (inSvc 0#32).cur.getSpsr = false :=
  ⟨by decide, runs_of (by decide), by decide, runs_of (by decide), by decide⟩

/-- A machine of a configuration. -/
def configured (thumb : Bool) (cfg : Config) : State := { bare thumb with cfg := cfg }

theorem witness_SwiTraps :
    let s (thumb : Bool) := configured thumb { Config.default with swiMode := .trap }
    (Instr.swi .al 0x060000#24).swi? = some 6#8 ∧ (s false).cfg.swiMode = .trap ∧ Runs (.swi .al 0x060000#24) (s false)
      ∧ (Instr.tSwi 6#8).swi? = some 6#8 ∧ Runs (.tSwi 6#8) (s true) :=
  ⟨by decide, rfl, runs_of (by decide), rfl, runs_of (by decide)⟩

/-- The idle services at the two ends of their range, 3 and 6, and between. -/
theorem witness_SwiIdles :
    (bare true).cfg.swiMode = .hle ∧ Runs (.tSwi 3#8) (bare true) ∧ Runs (.tSwi 4#8) (bare true)
      ∧ Runs (.tSwi 5#8) (bare true) ∧ Runs (.tSwi 6#8) (bare true)
      ∧ Runs (.swi .al 0x030000#24) (bare false) ∧ (Instr.swi .al 0x030000#24).swi? = some 3#8 :=
  ⟨rfl, runs_of (by decide), runs_of (by decide), runs_of (by decide), runs_of (by decide), runs_of (by decide), by decide⟩

/-- The numbers next to the idle services, 2 and 7, with and without a service. -/
theorem witness_SwiServices :
    let given := configured true { Config.default with biosService := true }
    (bare true).cfg.biosService = false ∧ Runs (.tSwi 2#8) (bare true) ∧ Runs (.tSwi 7#8) (bare true)
      ∧ given.cfg.biosService = true ∧ Runs (.tSwi 2#8) given ∧ Runs (.swi .al 0x070000#24) (bare false) :=
  ⟨rfl, runs_of (by decide), runs_of (by decide), rfl, runs_of (by decide), runs_of (by decide)⟩

theorem witness_Cp15Transfers :
    let user := start .fast .hle 0x1000#32 0x10#32 [] []
    Runs (.mcr .al 0#3 1#4 .r0 0#3 0#4) user ∧ Runs (.mrc .al 0#3 1#4 .r0 0#3 0#4) user
      ∧ psrMode? user.cur.cpsr = some .usr ∧ psrMode? (bare false).cur.cpsr = some .sys
      ∧ Runs (.mcr .al 0#3 7#4 .r0 4#3 0#4) (bare false) ∧ Runs (.mcr .al 0#3 7#4 .r0 2#3 8#4) (bare false)
      ∧ Runs (.mcr .al 0#3 1#4 .r0 0#3 0#4) (bare false) ∧ Runs (.mrc .al 0#3 1#4 .r0 0#3 0#4) (bare false)
      ∧ Runs (.mrc .al 0#3 1#4 .r15 0#3 0#4) (bare false) :=
  ⟨runs_of (by decide), runs_of (by decide), by decide, by decide, runs_of (by decide), runs_of (by decide),
    runs_of (by decide), runs_of (by decide), runs_of (by decide)⟩

/-- Each clause of the stop: an instruction the core lacks, an unpredictable form, BKPT, a word that decodes to nothing
(with its condition passed and failed), and what SLOW skips. -/
theorem witness_StopsUnrecognized :
    let slow := start .slow .hle 0x1000#32 0x1F#32 [] []
    (Instr.clz .al .r0 .r1).recognizedOn slow.turn = false ∧ (Instr.clz .al .r0 .r1).passes slow.cur.cpsr = true
      ∧ (Instr.clz .al .r0 .r1).cond? ≠ none
      ∧ (Instr.mul .al false .r0 .r15 .r1).recognizedOn (bare false).turn = false
      ∧ (Instr.bkpt 0#16).recognizedOn (bare false).turn = false ∧ (Instr.bkpt 0#16).passes (bare false).cur.cpsr = true
      ∧ slow.turn = .slow ∧ (Instr.blxImm false 0#24).isThumb = false ∧ (Instr.blxImm false 0#24).cond? = none
      ∧ (Instr.pld false true .r0 0#12).cond? = none := by
  decide

theorem witness_StopsUnrecognized_word :
    let word (w : Word) := (bare false).onCur fun c => c.setExecSlot { Slot.empty with word := w, tag := .UNRECOGNIZED }
    rejects (word 0xEE000000#32).turn false (word 0xEE000000#32).cur.execSlot.word = true
      ∧ checkCondition (Cond.ofBits ((word 0xEE000000#32).cur.execSlot.word.extractLsb' 28 4)) 0x1F#32 = true
      ∧ rejects (word 0x0E000000#32).turn false (word 0x0E000000#32).cur.execSlot.word = true
      ∧ checkCondition (Cond.ofBits ((word 0x0E000000#32).cur.execSlot.word.extractLsb' 28 4)) 0x1F#32 = false := by
  decide

theorem witness_ConditionFailedSkips :
    (Instr.addImm .eq false .r0 .r0 0#4 1#8).cond? = some .eq ∧ checkCondition .eq (bare false).cur.cpsr = false := by
  decide

theorem witness_DecodeEncodeArm : (Instr.ldrd .al .pre true .r1 .r2 (.imm 255#8)).wf .fast = true
    ∧ (Instr.ldrd .al .pre true .r1 .r2 (.imm 255#8)).isThumb = false ∧ (Instr.b .le 0x800000#24).wf .slow = true := by
  decide

theorem witness_DecodeEncodeThumb :
    (Instr.tBCond .le 0x80#8).wf .slow = true ∧ (Instr.tBCond .le 0x80#8).isThumb = true := by
  decide

theorem witness_DecodedIsWellFormed :
    (decodeWord .slow true 0x4348#32).toOption = some (.tMulAlu .r1 .r0)
      ∧ (decodeWord .fast false 0xE0910002#32).toOption = some (.addShiftImm .al true .r1 .r0 0#5 .lsl .r2) := by
  decide

/-- A state about to dispatch ADDS r0, r1, r2. -/
def ready : State := (bare false).withFetchWord 32 0xE0910002

theorem witness_StepRunsDecoded :
    ready.sessionHalted = false ∧ ready.cores.fast.running = true ∧ ready.cores.slow.running = true
      ∧ ready.debugHalted = false ∧ ready.bpResume = false ∧ ready.breakpoints.contains ready.cur.instrAddr = false
      ∧ ready.cur.idleState = .running
      ∧ (decodeWord ready.turn (psrT ready.cur.cpsr) ready.cur.execSlot.word).toOption
          = some (.addShiftImm .al true .r1 .r0 0#5 .lsl .r2)
      ∧ ready.cur.execSlot.tag = (Instr.addShiftImm .al true .r1 .r0 0#5 .lsl .r2).tag := by
  decide

theorem witness_FetchReachesExecute :
    State.reset.cur.ptr = 0 ∧ (∀ j, State.reset.cur.slot j = Slot.empty) ∧ State.reset.cur.needsFlush = false := by
  decide

theorem witness_FlushOrAdvance :
    (State.reset.cur.writePc 0x100#32).needsFlush = true ∧ State.reset.cur.needsFlush = false := by
  decide

/-- A step that answers a next state. -/
theorem next_of {s : State} (h : (match step s with | .next _ => true | _ => false) = true) : ∃ t, step s = .next t := by
  cases hs : step s with
  | next t => exact ⟨t, rfl⟩
  | fault f => simp [hs] at h
  | refused r => simp [hs] at h

theorem witness_StepKeepsMemoryCanonical : Memory.wf ready.mem = true ∧ ∃ t, step ready = .next t :=
  ⟨by decide, next_of (by decide)⟩

theorem witness_StepKeepsStatusLegal : (∀ k, (ready.cores.get k).PsrInv k) ∧ ∃ t, step ready = .next t := by
  refine ⟨fun k => ?_, next_of (by decide)⟩
  cases k <;> (unfold CoreState.PsrInv PsrClean; decide)

theorem witness_slots (k : CoreId) (j : Fin 3) : ((ready.cores.get k).slot j).rphys = Slot.clearPhys := by
  revert j
  cases k <;> decide

theorem witness_StepKeepsPcAligned : (∀ k, (ready.cores.get k).PcInv) ∧ ∃ t, step ready = .next t := by
  refine ⟨fun k => ⟨by cases k <;> decide, fun j i => ⟨.usr, ?_⟩⟩, next_of (by decide)⟩
  rw [witness_slots]
  cases i <;> rfl

theorem witness_StepKeepsSlots : (∀ k, (ready.cores.get k).SlotInv k) ∧ ∃ t, step ready = .next t := by
  refine ⟨fun k => ?_, next_of (by decide)⟩
  cases k <;> (unfold CoreState.SlotInv Slot.TagInv; decide)

theorem witness_StepKeepsTurn : ready.TurnInv ∧ ∃ t, step ready = .next t := by
  refine ⟨⟨by decide, fun k hk => ?_⟩, next_of (by decide)⟩
  cases k
  · exact absurd (by decide) hk
  · decide

theorem witness_StepLeavesOtherCore : CoreId.slow ≠ ready.turn ∧ ∃ t, step ready = .next t :=
  ⟨by decide, next_of (by decide)⟩

theorem witness_UserModeKeepsPrivilege :
    let s := start .fast .hle 0x1000#32 0x10#32 [] []
    psrMode? s.cur.cpsr = some .usr ∧ s.cur.execSlot.rmask = 0#16 ∧ s.cfg.swiMode = .hle
      ∧ (Instr.msrReg .al false 9#4 .r1).swi? = none := by
  decide

theorem witness_CoreReset : State.reset.cfg.resetProfile = .architectural := rfl

/-- The four kinds of state of the statement on halting. -/
theorem witness_HaltIsFinal :
    ({ State.reset with sessionHalted := true } : State).sessionHalted = true
      ∧ State.reset.sessionHalted = false ∧ (State.reset.onCur fun c => { c with running := false }).cores.fast.running = false
      ∧ State.reset.cores.fast.running = true ∧ State.reset.cores.slow.running = true ∧ ∃ t, step State.reset = .next t :=
  ⟨rfl, rfl, by decide, rfl, rfl, next_of (by decide)⟩

/-- Debugger halted, a breakpoint at the instruction about to dispatch, and the resume. -/
theorem witness_DebuggerHolds :
    let s : State := { ready with breakpoints := [0x1000#32] }
    s.sessionHalted = false ∧ s.cores.fast.running = true ∧ s.cores.slow.running = true ∧ s.debugHalted = false
      ∧ s.cur.idleState = .running ∧ s.cur.execSlot.decoded = true ∧ s.bpResume = false
      ∧ s.breakpoints.contains s.cur.instrAddr = true := by
  decide

/-- A charge of 1 from a budget of 2 keeps the turn, from a budget of 1 it hands it over. -/
theorem witness_SettleHandsOff :
    let s : State := { State.reset.onCur fun c => { c with cycles := 1 } with budget := 2 }
    s.TurnInv ∧ s.busOwner = .fast ∧ s.cur.cycles = 1 ∧ (0 : Int) < 2 - 1 ∧ (1 : Int) - 1 ≤ 0 := by
  refine ⟨⟨by decide, fun k hk => ?_⟩, by decide, by decide, by decide, by decide⟩
  cases k
  · exact absurd rfl hk
  · rfl

theorem witness_BudgetTracksDrift :
    State.reset.TurnInv ∧ State.reset.budget = (if State.reset.busOwner = .fast then 2 * 0 - 0 else 0 - 2 * 0)
      ∧ ∃ t, State.reset.work = .next t := by
  refine ⟨⟨by decide, fun k hk => ?_⟩, by decide, ?_⟩
  · cases k
    · exact absurd rfl hk
    · rfl
  · have h : step State.reset = State.reset.work := rfl
    rw [← h]
    exact next_of (by decide)

/-- A core in an idle state, with its ports. -/
def idling (idle : IdleState) (count sel ie iflag : Word) : State :=
  let s := (bare false).onCur fun c => { c with idleState := idle, waitCount := count, waitAnySel := sel }
  s.setPorts { s.curPorts with ie := ie, iflag := iflag }

/-- The six clauses of the idle step; the counter at 0, 1 and 2, a line of LINEMASK and one outside it. -/
theorem witness_IdleStepRules :
    let found (s : State) : Bool := s.curPorts.ie &&& s.curPorts.iflag &&& lineMask s.turn != 0#32
    let any (s : State) : Bool := s.cur.waitAnySel == 0#32 && s.curPorts.iflag &&& lineMask s.turn != 0#32
    found (idling .halted 0#32 0#32 1#32 1#32) = true ∧ found (idling .halted 0#32 0#32 0x200000#32 0x200000#32) = false
      ∧ (idling .waitLoop 0#32 0#32 0#32 0#32).cur.waitCount.toNat ≤ 1
      ∧ (idling .waitLoop 1#32 0#32 0#32 0#32).cur.waitCount.toNat ≤ 1
      ∧ 1 < (idling .waitLoop 2#32 0#32 0#32 0#32).cur.waitCount.toNat
      ∧ any (idling .waitInterrupt 0#32 0#32 0#32 4#32) = true ∧ found (idling .waitInterrupt 0#32 1#32 4#32 4#32) = true
      ∧ any (idling .waitInterrupt 0#32 1#32 0#32 4#32) = false ∧ found (idling .waitInterrupt 0#32 1#32 0#32 4#32) = false := by
  decide

/-- A core with a pending, enabled interrupt. -/
def interrupted (thumb : Bool) : State :=
  (bare thumb).setPorts { ie := 1#32, iflag := 1#32, ieSaved := 0#32, ifSaved := 0#32, ime := 1#32, pulses := [] }

theorem witness_IrqDispatchEnters :
    (interrupted true).curPorts.ime.getLsbD 0 = true ∧ psrI (interrupted true).cur.cpsr = false
      ∧ (interrupted true).curPorts.ie &&& (interrupted true).curPorts.iflag &&& lineMask (interrupted true).turn ≠ 0#32
      ∧ (bare true).curPorts.ime.getLsbD 0 = false := by
  decide

theorem witness_IrqThenReturn :
    (interrupted true).irqPending = true ∧ (interrupted true).cur.PsrInv (interrupted true).turn
      ∧ (interrupted true).cur.execSlot.rmask = 0#16 := by
  refine ⟨by decide, ?_, by decide⟩
  unfold CoreState.PsrInv PsrClean
  decide

/-- A core in each mode. -/
theorem witness_SpsrAccess :
    let m (v : Word) := psrMode? (start .fast .hle 0x1000#32 v [] []).cur.cpsr
    m 0x10#32 = some .usr ∧ m 0x1F#32 = some .sys ∧ m 0x11#32 = some .fiq ∧ m 0x13#32 = some .svc
      ∧ m 0x17#32 = some .abt ∧ m 0x12#32 = some .irq ∧ m 0x1B#32 = some .und := by
  decide

theorem witness_ReadAfterWordWrite :
    Memory.wf ready.mem = true ∧ (0xFFFFFFFC#32 : Word).toNat % 4 = 0 ∧ ¬InAccess .word 0xFFFFFFFC#32 0 := by
  refine ⟨by decide, by decide, ?_⟩
  rintro ⟨n, hn, h⟩
  have : n = 0 ∨ n = 1 ∨ n = 2 ∨ n = 3 := by
    simp only [Width.bytes] at hn
    omega
  obtain rfl | rfl | rfl | rfl := this <;> revert h <;> decide

theorem witness_AdditionExact : psrC 0x2000001F#32 = true ∧ psrC 0x1F#32 = false := by decide

theorem witness_SubtractionExact : (!psrC 0x2000001F#32) = false ∧ (!psrC 0x1F#32) = true := by decide

theorem witness_LeadingZerosCounts : (1#32 : Word) ≠ 0#32 ∧ (0x80000000#32 : Word) ≠ 0#32 := by decide

/-- Both policies of C, for a multiply of each shape that sets flags. -/
theorem witness_MultiplyPolicies :
    let s (thumb : Bool) := configured thumb { Config.default with mulCPolicy := .meaningless }
    Config.default.mulCPolicy = .unchanged ∧ Runs (.mul .al true .r0 .r2 .r1) (s false)
      ∧ Runs (.smlal .al true .r0 .r1 .r2 .r3) (s false) ∧ Runs (.tMulAlu .r1 .r0) (s true) := by
  unfold Runs
  decide

/-- The word of BLX immediate of the vectors: its class on FAST, none on SLOW (30_encoding.md R95, R99). -/
theorem test_blx_imm_tag :
    decodeTag .fast false 0xFB000000#32 = .A_BLXI ∧ decodeTag .slow false 0xFB000000#32 = .UNRECOGNIZED
      ∧ decodeTag .slow false 0xEB000000#32 = .A_B := by
  decide

/-- The forms of operand 2 where they meet: the examples of 42_arm_dataproc.md R171 to R173, and no rotation. -/
theorem test_operand2_forms :
    let c (r1 r3 : Word) := (start .fast .hle 0x1000#32 0x2000001F#32 [(.r1, r1), (.r3, r3)] []).cur
    (c 0 0).sh (.imm 4#4 0xFF#8) = (0xFF000000#32, some true) ∧ (c 0 0).sh (.imm 0#4 0xFF#8) = (0xFF#32, none)
      ∧ (c 3#32 0x100#32).sh (.shiftReg .r3 .ror .r1) = (3#32, none)
      ∧ (c 3#32 0x120#32).sh (.shiftReg .r3 .lsl .r1) = (0#32, some false)
      ∧ (c 0x80000000#32 0).sh (.shiftImm 0#5 .lsr .r1) = (0#32, some true)
      ∧ (c 3#32 0).sh (.shiftImm 0#5 .ror .r1) = (0x80000001#32, some true)
      ∧ (c 0 0).sh (.shiftImm 0#5 .lsl .r15) = ((c 0 0).instrAddr + 8#32, none) ∧ (c 0 0).instrAddr = 0xFF8#32 := by
  decide

/-- The three forms of an effective address, at both ends of the address space (43_arm_loadstore.md R216). -/
theorem test_effective_forms :
    let e (m : IndexMode) (up : Bool) := (start .fast .hle 0x1000#32 0x1F#32 [(.r1, 4#32)] []).cur.effImm m up .r1
    (e .offset false 8#12).addr = 0xFFFFFFFC#32 ∧ (e .offset false 8#12).wb = none
      ∧ (e .pre true 8#12).addr = 12#32 ∧ (e .pre true 8#12).wb = some (.r1, 12#32)
      ∧ (e .post false 8#12).addr = 4#32 ∧ (e .post false 8#12).wb = some (.r1, 0xFFFFFFFC#32) := by
  decide

end Sys2Proof.Tests
end

section
/-! SUPPORT. An instruction that completes without an access: from the rule of one core to the frame of the statements.
A rule that leaves the executing core with other registers, another cpsr and another flush request, and nothing else, is
followed by a writeback stage that only clears scratch lists, and by a charge. -/

namespace Sys2Proof.Machine

/-! ## What the end of an instruction does to the slots -/

/-- `d` is `c` with other scratch lists in its slots: their words, their tags and every other field are the same. -/
def CoreState.ScratchOnly (c d : CoreState) : Prop :=
  d = { c with slot0 := d.slot0, slot1 := d.slot1, slot2 := d.slot2 }
    ∧ ∀ j, (d.slot j).word = (c.slot j).word ∧ (d.slot j).tag = (c.slot j).tag

/-- Two changes of scratch lists, one after the other. -/
theorem CoreState.ScratchOnly.trans {a b c : CoreState} (hab : a.ScratchOnly b) (hbc : b.ScratchOnly c) :
    a.ScratchOnly c := by
  obtain ⟨hb, hbSlots⟩ := hab
  obtain ⟨hc, hcSlots⟩ := hbc
  refine ⟨?_, fun j => ⟨(hcSlots j).1.trans (hbSlots j).1, (hcSlots j).2.trans (hbSlots j).2⟩⟩
  rw [hb] at hc
  exact hc

/-- Replacing a slot changes no field but the slots. -/
theorem CoreState.setSlot_eq (c : CoreState) (i : Fin 3) (sl : Slot) :
    c.setSlot i sl =
      { c with slot0 := (c.setSlot i sl).slot0, slot1 := (c.setSlot i sl).slot1, slot2 := (c.setSlot i sl).slot2 } := by
  match i with
  | 0 => rfl
  | 1 => rfl
  | 2 => rfl

/-- An executing slot with the same word and tag. -/
theorem CoreState.scratchOnly_setExecSlot (c : CoreState) {sl : Slot} (hword : sl.word = c.execSlot.word)
    (htag : sl.tag = c.execSlot.tag) : c.ScratchOnly (c.setExecSlot sl) := by
  refine ⟨CoreState.setSlot_eq c c.execIdx sl, fun j => ?_⟩
  unfold CoreState.setExecSlot
  by_cases hj : j = c.execIdx
  · subst hj
    rw [CoreState.slot_setSlot_self]
    exact ⟨hword, htag⟩
  · rw [CoreState.slot_setSlot_ne c sl hj]
    exact ⟨rfl, rfl⟩

/-- The access stage and the clearing of the bitmap. -/
theorem CoreState.scratchOnly_finish (c : CoreState) : c.ScratchOnly c.accessMem.clearStaged :=
  (c.scratchOnly_setExecSlot (sl := { c.execSlot with raddr := RegMap.const 0#32 }) rfl rfl).trans
    (c.accessMem.scratchOnly_setExecSlot (sl := { c.accessMem.execSlot with rmask := 0#16 }) rfl rfl)

/-- Nothing is staged after the bitmap is cleared. -/
@[simp] theorem CoreState.execSlot_clearStaged_rmask (c : CoreState) : c.clearStaged.execSlot.rmask = 0#16 := by
  simp [CoreState.clearStaged]

/-- A charge is never 0 (60_exceptions.md R378). -/
theorem Config.tickCycles_pos (cfg : Config) (k : CoreId) (r : TickRec) : 0 < cfg.tickCycles k r := by
  unfold Config.tickCycles costOf
  omega

/-- `State.perform_of_done` with the charge known to be positive, which the frame of the statements needs. -/
theorem State.perform_of_done_pos {s t : State} {w : PcCommit} {r : Rule} (h : r s.turn s = .done t)
    (he : t.cur.execSlot.rmask = 0#16) :
    ∃ n, 0 < n ∧ s.perform w r = t.onCur fun c => c.accessMem.clearStaged.charge n := by
  simp only [State.perform, h]
  rw [State.writeStaged_of_empty t _ w he]
  refine ⟨_, Config.tickCycles_pos s.cfg s.turn (.executed s.cur.execSlot.tag s.cur.execSlot.word s.cur.instrAddr
    (t.traffic.drop s.traffic.length)), ?_⟩
  simp

/-! ## The two ways an instruction reaches its rule -/

/-- No unpredictable form runs. -/
theorem unpredictable_of_runs {i : Instr} {s : State} (h : Runs i s) : i.unpredictable = false := by
  obtain ⟨-, hrec, -, -⟩ := h
  simp only [Instr.recognizedOn, Bool.and_eq_true, Bool.not_eq_true'] at hrec
  exact hrec.1.2

/-- An instruction without a condition test that runs performs its rule. -/
theorem runAlways_of_runs {i : Instr} {w : PcCommit} {r : Rule} {s : State} (h : Runs i s) :
    runAlways i w r s = .next (s.perform w r) := by
  obtain ⟨-, hrec, -, -⟩ := h
  exact runAlways_of_recognized hrec

/-- A conditional instruction that runs performs its rule. -/
theorem runCond_of_runs {i : Instr} {c : Cond} {w : PcCommit} {r : Rule} {s : State} (h : Runs i s)
    (hc : i.cond? = some c) : runCond i c w r s = .next (s.perform w r) := by
  have ⟨_, _, hpass, _⟩ := h
  have hcheck : checkCondition c s.cur.cpsr = true := by simpa only [Instr.passes, hc] using hpass
  rw [runCond_of_pass hcheck, runAlways_of_runs h]

/-! ## A rule that writes registers and the status word -/

/-- The core with other registers, another cpsr and another flush request. -/
def CoreState.updated (c : CoreState) (regs : RegFile) (cpsr : Word) (flush : Bool) : CoreState :=
  { c with regs := regs, cpsr := cpsr, needsFlush := flush }

/-- A core that differs from the one that holds the turn in the fields `Frame` names gives a framed state. -/
theorem frame_setCur {s : State} {d : CoreState}
    (hd : d = { s.cur with
      regs := d.regs, cpsr := d.cpsr, needsFlush := d.needsFlush, cycles := d.cycles
      slot0 := d.slot0, slot1 := d.slot1, slot2 := d.slot2 })
    (hslots : ∀ j, (d.slot j).word = (s.cur.slot j).word ∧ (d.slot j).tag = (s.cur.slot j).tag)
    (hstaged : d.execSlot.rmask = 0#16) (hcycles : s.cur.cycles < d.cycles) : Frame s (s.setCur d) := by
  unfold Frame
  rw [State.setCur_cur, ← hd]
  exact ⟨rfl, hslots, hstaged, hcycles⟩

/-- Replacing the core that holds the turn makes no access. -/
theorem noAccess_setCur (s : State) (d : CoreState) : NoAccess s (s.setCur d) := ⟨fun _ => rfl, rfl⟩

/-- The frame of a rule that ends in `CoreState.updated`: what the statements call `Frame` and `NoAccess`, and the three
fields as the rule left them. -/
theorem State.perform_updated {s : State} {w : PcCommit} {r : Rule} {regs : RegFile} {cpsr : Word} {flush : Bool}
    (hr : r s.turn s = .done (s.setCur (s.cur.updated regs cpsr flush))) (he : s.cur.execSlot.rmask = 0#16) :
    Frame s (s.perform w r) ∧ NoAccess s (s.perform w r) ∧ (s.perform w r).cur.needsFlush = flush
      ∧ (s.perform w r).cur.regs = regs ∧ (s.perform w r).cur.cpsr = cpsr := by
  obtain ⟨n, hn, ht⟩ := State.perform_of_done_pos (w := w) hr (by rw [State.setCur_cur]; exact he)
  obtain ⟨hfields, hslots⟩ := (s.cur.updated regs cpsr flush).scratchOnly_finish
  rw [State.onCur, State.setCur_setCur, State.setCur_cur] at ht
  rw [ht, State.setCur_cur]
  refine ⟨frame_setCur ?_ hslots (CoreState.execSlot_clearStaged_rmask _) ?_, noAccess_setCur s _, ?_, ?_, ?_⟩
  · rw [hfields]
    rfl
  all_goals simp [CoreState.updated, hn]

end Sys2Proof.Machine
end

section
/-! SUPPORT. The multiplies: the exact values of the statements are the ones the meanings compute, and what the two ends
of a multiply write. -/

namespace Sys2Proof.Machine

/-! ## Exact values -/

/-- An exact product, modulo 2^32. -/
theorem ofNat_mul_toNat (x y : Word) : BitVec.ofNat 32 (x.toNat * y.toNat) = x * y := by
  simp [BitVec.ofNat_mul]

/-- An exact product and sum, modulo 2^32. -/
theorem ofNat_mul_add_toNat (x y z : Word) : BitVec.ofNat 32 (x.toNat * y.toNat + z.toNat) = x * y + z := by
  rw [BitVec.ofNat_add, ofNat_mul_toNat, BitVec.ofNat_toNat, BitVec.setWidth_eq]

/-- An exact unsigned product of 64 bits. -/
theorem ofNat_mul_eq_umul64 (x y : Word) : BitVec.ofNat 64 (x.toNat * y.toNat) = umul64 x y := by
  simp [umul64, BitVec.ofNat_mul]

/-- The accumulator of a 64-bit multiply is the pair of its two words. -/
theorem ofNat_accumulator (c : CoreState) (hi lo : Reg) :
    BitVec.ofNat 64 (c.accumulator hi lo) = pair (c.reg hi) (c.reg lo) := by
  apply BitVec.eq_of_toNat_eq
  have hhi := (c.reg hi).isLt
  have hlo := (c.reg lo).isLt
  rw [pair, BitVec.toNat_append, ← Nat.shiftLeft_add_eq_or_of_lt hlo, Nat.shiftLeft_eq, BitVec.toNat_ofNat,
    CoreState.accumulator, Nat.mod_eq_of_lt (by omega)]

/-- An exact integer added to the accumulator of a 64-bit multiply, modulo 2^64. -/
theorem ofInt_add_accumulator (c : CoreState) (t : Int) (hi lo : Reg) :
    BitVec.ofInt 64 (t + c.accumulator hi lo) = BitVec.ofInt 64 t + pair (c.reg hi) (c.reg lo) := by
  rw [BitVec.ofInt_add, BitVec.ofInt_natCast, ofNat_accumulator]

/-- The signed halfword of the statements is the one of the meanings. -/
theorem signedHalf_eq_halfword (v : Word) (top : Bool) : signedHalf v top = halfword v top := by
  cases top <;> simp [signedHalf, halfword]

/-! ## What a multiply writes -/

/-- The end of a 32-bit multiply: the destination, and with S the status word. -/
theorem mulWrite_eq (s : State) (flags : Bool) {rd : Reg} (v : Word) (hrd : rd ≠ .r15) :
    mulWrite flags rd v s.cfg s.turn s.cur =
      .done (s.cur.updated (s.cur.regs.set (s.physOf rd) v)
        (if flags then s.mulPsr (v.getLsbD 31) (decide (v = 0#32)) else s.cur.cpsr) s.cur.needsFlush) := by
  unfold mulWrite
  rw [CoreState.setReg_regs_of_ne _ v hrd]
  cases flags with
  | false => rfl
  | true =>
    rw [mulPsr_eq]
    rfl

/-- The end of a 64-bit multiply: RdLo, then RdHi, and with S the status word. -/
theorem mullWrite_eq (s : State) (flags : Bool) {hi lo : Reg} (v : BitVec 64) (hhi : hi ≠ .r15) (hlo : lo ≠ .r15) :
    mullWrite flags hi lo v s.cfg s.turn s.cur =
      .done (s.cur.updated
        ((s.cur.regs.set (s.physOf lo) (v.extractLsb' 0 32)).set (s.physOf hi) (v.extractLsb' 32 32))
        (if flags then s.mulPsr (v.getLsbD 63) (decide (v = 0#64)) else s.cur.cpsr) s.cur.needsFlush) := by
  unfold mullWrite CoreState.setPair
  rw [CoreState.setReg_regs_of_ne _ _ hhi, CoreState.setReg_mode, CoreState.setReg_regs_of_ne _ _ hlo]
  cases flags with
  | false => rfl
  | true =>
    rw [mulPsr_eq]
    rfl

/-! ## The instructions -/

/-- No 32-bit multiply that a core recognizes writes r15. -/
theorem mul32_dest_ne_r15 {i : Instr} {c : CoreState} {rd : Reg} {v : Word} {flags : Bool}
    (hm : i.mul32? c = some (rd, v, flags)) (h : i.unpredictable = false) : rd ≠ .r15 := by
  unfold Instr.mul32? at hm
  split at hm
  case h_3 _ d =>
    cases hm
    exact loReg_ne_r15 d
  case h_4 => cases hm
  all_goals
    cases hm
    simp only [Instr.unpredictable, Bool.or_eq_false_iff, beq_eq_false_iff_ne, and_assoc] at h
    obtain ⟨hrd, -⟩ := h
    exact hrd

/-- Every 64-bit multiply that a core recognizes writes two different registers, neither of them r15. -/
theorem mul64_dests {i : Instr} {c : CoreState} {hi lo : Reg} {v : BitVec 64} {flags : Bool}
    (hm : i.mul64? c = some (hi, lo, v, flags)) (h : i.unpredictable = false) :
    hi ≠ .r15 ∧ lo ≠ .r15 ∧ hi ≠ lo := by
  unfold Instr.mul64? at hm
  split at hm
  case h_6 => cases hm
  all_goals
    cases hm
    simp only [Instr.unpredictable, Bool.or_eq_false_iff, beq_eq_false_iff_ne, and_assoc] at h
    obtain ⟨hhi, hlo, -, -, hne⟩ := h
    exact ⟨hhi, hlo, hne⟩

/-- Each 32-bit multiply that runs performs a rule that ends as `mulWrite` of the exact value does. -/
theorem exec_mul32 {i : Instr} {s : State} {c : CoreState} {rd : Reg} {v : Word} {flags : Bool}
    (hm : i.mul32? s.cur = some (rd, v, flags)) (h : Runs i s)
    (hw : mulWrite flags rd v s.cfg s.turn s.cur = .done c) :
    ∃ r : Rule, exec i s = .next (s.perform .load r) ∧ r s.turn s = .done (s.setCur c) := by
  unfold Instr.mul32? at hm
  split at hm
  case h_1 _ _ _ rs rm =>
    cases hm
    rw [ofNat_mul_toNat] at hw
    exact ⟨onCoreCfg (mulRule flags rd rs rm), runCond_of_runs h rfl, onCoreCfg_done hw⟩
  case h_2 _ _ _ rn rs rm =>
    cases hm
    rw [ofNat_mul_add_toNat] at hw
    exact ⟨onCoreCfg (mlaRule flags rd rn rs rm), runCond_of_runs h rfl, onCoreCfg_done hw⟩
  case h_3 rs d =>
    cases hm
    rw [ofNat_mul_toNat] at hw
    exact ⟨onCoreCfg (thumbMulRule rs d), runAlways_of_runs h, onCoreCfg_done hw⟩
  case h_4 => cases hm

/-- Each 64-bit multiply that runs performs a rule that ends as `mullWrite` of the exact value does. -/
theorem exec_mul64 {i : Instr} {s : State} {c : CoreState} {hi lo : Reg} {v : BitVec 64} {flags : Bool}
    (hm : i.mul64? s.cur = some (hi, lo, v, flags)) (h : Runs i s)
    (hw : mullWrite flags hi lo v s.cfg s.turn s.cur = .done c) :
    ∃ r : Rule, exec i s = .next (s.perform .load r) ∧ r s.turn s = .done (s.setCur c) := by
  unfold Instr.mul64? at hm
  split at hm
  case h_1 _ _ _ _ rs rm =>
    cases hm
    rw [ofNat_mul_eq_umul64] at hw
    exact ⟨onCoreCfg (umullRule flags hi lo rs rm), runCond_of_runs h rfl, onCoreCfg_done hw⟩
  case h_2 _ _ _ _ rs rm =>
    cases hm
    rw [BitVec.ofNat_add, ofNat_mul_eq_umul64, ofNat_accumulator] at hw
    exact ⟨onCoreCfg (umlalRule flags hi lo rs rm), runCond_of_runs h rfl, onCoreCfg_done hw⟩
  case h_3 _ _ _ _ rs rm =>
    cases hm
    exact ⟨onCoreCfg (smullRule flags hi lo rs rm), runCond_of_runs h rfl, onCoreCfg_done hw⟩
  case h_4 _ _ _ _ rs rm =>
    cases hm
    rw [ofInt_add_accumulator] at hw
    exact ⟨onCoreCfg (smlalRule flags hi lo rs rm), runCond_of_runs h rfl, onCoreCfg_done hw⟩
  case h_5 _ x y _ _ rs rm =>
    cases hm
    rw [ofInt_add_accumulator, signedHalf_eq_halfword, signedHalf_eq_halfword] at hw
    exact ⟨onCore (smlalXYRule x y hi lo rs rm), runCond_of_runs h rfl, onCore_done hw⟩
  case h_6 => cases hm

/-! ## The statements -/

/-- Settles O43: the rule of the instruction ends in `mulWrite`, which updates one register and the status word. -/
theorem multiplyWrites : Obligations.MultiplyWrites := by
  unfold Obligations.MultiplyWrites
  intro i s rd v flags hm h
  have hrd : rd ≠ .r15 := mul32_dest_ne_r15 hm (unpredictable_of_runs h)
  obtain ⟨r, hexec, hr⟩ := exec_mul32 hm h (mulWrite_eq s flags v hrd)
  obtain ⟨-, -, -, hstaged⟩ := h
  obtain ⟨hframe, hacc, hflush, hregs, hcpsr⟩ := State.perform_updated (w := .load) hr hstaged
  refine ⟨_, hexec, hframe, hacc, hflush, ?_, fun p hp => ?_, hcpsr⟩
  · rw [hregs, RegFile.get_set_self]
  · rw [hregs, RegFile.get_set_ne _ v hp]

/-- Settles O44: the rule of the instruction ends in `mullWrite`, which updates two different registers and the status
word. -/
theorem longMultiplyWrites : Obligations.LongMultiplyWrites := by
  unfold Obligations.LongMultiplyWrites
  intro i s hi lo v flags hm h
  obtain ⟨hhi, hlo, hne⟩ := mul64_dests hm (unpredictable_of_runs h)
  have hphys : s.physOf lo ≠ s.physOf hi := fun e => hne (phys_inj.mp e).symm
  obtain ⟨r, hexec, hr⟩ := exec_mul64 hm h (mullWrite_eq s flags v hhi hlo)
  obtain ⟨-, -, -, hstaged⟩ := h
  obtain ⟨hframe, hacc, hflush, hregs, hcpsr⟩ := State.perform_updated (w := .load) hr hstaged
  refine ⟨_, hexec, hframe, hacc, hflush, ?_, ?_, fun p hp => ?_, hcpsr⟩
  · rw [hregs, RegFile.get_set_ne _ _ hphys, RegFile.get_set_self]
  · rw [hregs, RegFile.get_set_self]
  · obtain ⟨hpLo, hpHi⟩ := not_or.mp hp
    rw [hregs, RegFile.get_set_ne _ _ hpHi, RegFile.get_set_ne _ _ hpLo]

end Sys2Proof.Machine
end

section
/-! SUPPORT. What a step can do, said once: a step is a chain of elementary changes of the machine, of which at most one
hands the turn over.  Each invariant of a step is then one argument over the elementary changes. -/

namespace Sys2Proof.Machine

open Relation (ReflTransGen)

/-! ## Elementary changes -/

/-- The elementary changes of the core that executes.  `outer` says whether the two changes that no instruction but a
trapping SWI makes are among them: the entry of an exception and the end of a pipeline cycle. -/
inductive CoreUpdate (outer : Prop) (k : CoreId) (c : CoreState) : CoreState → Prop where
  /-- A register write (10_state.md R24); of number 15, a branch in the current state. -/
  | setReg (i : Reg) (v : Word) : CoreUpdate outer k c (c.setReg i v)
  /-- A write of cpsr that keeps its control byte. -/
  | flags (p : Word) (h : ∀ j < 8, p.getLsbD j = c.cpsr.getLsbD j) : CoreUpdate outer k c (c.setCpsr k p)
  /-- A branch with a change of state (44_arm_branch_system.md R247, R248). -/
  | exchange (thumb : Bool) (v : Word) : CoreUpdate outer k c ((c.setCpsr k (psrSetT c.cpsr thumb)).writePc v)
  /-- MSR to cpsr with a legal mode (42_arm_dataproc.md R192). -/
  | msr (fields : BitVec 4) (v : Word) (h : psrLegal (msrValue k c.cpsr fields v) = true) :
      CoreUpdate outer k c (c.setCpsr k (msrValue k c.cpsr fields v))
  /-- A write of the spsr of the current mode (10_state.md R26). -/
  | setSpsr (v : Word) : CoreUpdate outer k c (c.setSpsr k v)
  /-- A return from an exception (60_exceptions.md R375). -/
  | restore (v : Word) (h : psrLegal c.getSpsr = true) : CoreUpdate outer k c ((c.setCpsr k c.getSpsr).writePc v)
  /-- Staging a register into its bank of the current mode or of USR (41_pipeline.md R153, 43_arm_loadstore.md R239). -/
  | stage (i : Reg) (m : Mode) (addr v : Word) (h : m = c.mode ∨ m = .usr) :
      CoreUpdate outer k c (c.stage i (phys i m) addr v)
  /-- The commit of the staged registers but r15 (41_pipeline.md R155). -/
  | commit : CoreUpdate outer k c { c with regs := allRegs.foldl (commitOne c.execSlot) c.regs }
  /-- A slot with another word or tag or other scratch lists, with nothing newly staged and no new target. -/
  | slot (j : Fin 3) (sl : Slot) (hstaged : ∀ i, sl.staged i = true → (c.slot j).staged i = true)
      (hphys : sl.rphys = (c.slot j).rphys ∨ sl.rphys = Slot.clearPhys) : CoreUpdate outer k c (c.setSlot j sl)
  /-- The fields that no invariant of a step speaks of. -/
  | bookkeeping (d : CoreState)
      (h : d = { c with
        running := d.running, idleState := d.idleState, waitCount := d.waitCount, waitAnySel := d.waitAnySel
        cycles := d.cycles, dbgTag := d.dbgTag, dbgOperand := d.dbgOperand, diag := d.diag }) : CoreUpdate outer k c d
  /-- The entry of an exception (60_exceptions.md R363). -/
  | enter (vbase : Word) (m : Mode) (offset lr : Word) (maskF : Bool) (h : outer) :
      CoreUpdate outer k c (c.enterException k vbase m offset lr maskF)
  /-- The end of a pipeline cycle (41_pipeline.md R142). -/
  | endCycle (h : outer) : CoreUpdate outer k c c.endCycle

/-- Chains of elementary changes of a core. -/
abbrev CoreUpdates (outer : Prop) (k : CoreId) : CoreState → CoreState → Prop := ReflTransGen (CoreUpdate outer k)

/-- The elementary changes of the machine before the turn is settled: of the core that holds the turn, of its ports, and
of the fields that belong to no core and are no part of the schedule. -/
inductive Change (outer : Prop) (s : State) : State → Prop where
  | core (d : CoreState) (h : CoreUpdate outer s.turn s.cur d) : Change outer s (s.setCur d)
  | ports (p : Ports) : Change outer s (s.setPorts p)
  | shared (t : State)
      (h : t = { s with
        mem := t.mem, traffic := t.traffic, cp15Log := t.cp15Log, biosCalls := t.biosCalls
        sessionHalted := t.sessionHalted, debugHalted := t.debugHalted, bpResume := t.bpResume }) : Change outer s t

/-- Chains of elementary changes of the machine. -/
abbrev Changes (outer : Prop) : State → State → Prop := ReflTransGen (Change outer)

section
variable {outer : Prop}

/-! ## Chains -/

/-- Replacing the core that holds the turn by itself. -/
@[simp] theorem State.setCur_self (s : State) : s.setCur s.cur = s := by
  show ({ s with cores := s.cores.set s.turn (s.cores.get s.turn) } : State) = s
  rw [PerCore.set_get]

/-- A chain of changes of the core that holds the turn. -/
theorem Changes.ofCore {s : State} {d : CoreState} (h : CoreUpdates outer s.turn s.cur d) :
    Changes outer s (s.setCur d) := by
  induction h with
  | refl => rw [State.setCur_self]
  | @tail b d _ hbd ih =>
    have hlast : Change outer (s.setCur b) ((s.setCur b).setCur d) := .core d (by simpa using hbd)
    rw [State.setCur_setCur] at hlast
    exact ih.tail hlast

/-- One change of the core that holds the turn. -/
theorem Changes.onCur {s : State} {f : CoreState → CoreState} (h : CoreUpdate outer s.turn s.cur (f s.cur)) :
    Changes outer s (s.onCur f) :=
  .single (.core _ h)

/-- One change of the ports. -/
theorem Changes.ofPorts (s : State) (p : Ports) : Changes outer s (s.setPorts p) := .single (.ports p)

/-- One change of the fields of no core. -/
theorem Changes.ofShared {s : State} (t : State)
    (h : t = { s with
      mem := t.mem, traffic := t.traffic, cp15Log := t.cp15Log, biosCalls := t.biosCalls
      sessionHalted := t.sessionHalted, debugHalted := t.debugHalted, bpResume := t.bpResume }) : Changes outer s t :=
  .single (.shared t h)

/-- Between `s` and `t` the schedule, the parameters, the breakpoints and the core without the turn are the same. -/
structure SameElsewhere (s t : State) : Prop where
  myTurn : t.myTurn = s.myTurn
  busOwner : t.busOwner = s.busOwner
  cfg : t.cfg = s.cfg
  breakpoints : t.breakpoints = s.breakpoints
  cores : ∀ k, k ≠ s.turn → t.cores.get k = s.cores.get k
  ports : ∀ k, k ≠ s.turn → t.ports.get k = s.ports.get k

/-- The turn is a function of the flags of the schedule. -/
theorem SameElsewhere.turn {s t : State} (h : SameElsewhere s t) : t.turn = s.turn := by
  unfold State.turn
  rw [h.myTurn]

theorem SameElsewhere.refl (s : State) : SameElsewhere s s := ⟨rfl, rfl, rfl, rfl, fun _ _ => rfl, fun _ _ => rfl⟩

theorem SameElsewhere.trans {s t u : State} (hst : SameElsewhere s t) (htu : SameElsewhere t u) :
    SameElsewhere s u where
  myTurn := htu.myTurn.trans hst.myTurn
  busOwner := htu.busOwner.trans hst.busOwner
  cfg := htu.cfg.trans hst.cfg
  breakpoints := htu.breakpoints.trans hst.breakpoints
  cores k hk := (htu.cores k (by rwa [hst.turn])).trans (hst.cores k hk)
  ports k hk := (htu.ports k (by rwa [hst.turn])).trans (hst.ports k hk)

theorem Change.sameElsewhere {s t : State} (h : Change outer s t) : SameElsewhere s t := by
  cases h with
  | core d => exact ⟨rfl, rfl, rfl, rfl, fun k hk => PerCore.get_set_ne _ _ hk, fun _ _ => rfl⟩
  | ports p => exact ⟨rfl, rfl, rfl, rfl, fun _ _ => rfl, fun k hk => PerCore.get_set_ne _ _ hk⟩
  | shared t h =>
    rw [h]
    exact ⟨rfl, rfl, rfl, rfl, fun _ _ => rfl, fun _ _ => rfl⟩

theorem Changes.sameElsewhere {s t : State} (h : Changes outer s t) : SameElsewhere s t := by
  induction h with
  | refl => exact SameElsewhere.refl s
  | tail _ hbc ih => exact ih.trans hbc.sameElsewhere

/-- A property of the core that holds the turn that every elementary change of a core keeps. -/
theorem Changes.keep {s t : State} {I : CoreState → Prop}
    (hI : ∀ c d, CoreUpdate outer s.turn c d → I c → I d) (h : Changes outer s t) (hs : I s.cur) : I t.cur := by
  induction h with
  | refl => exact hs
  | @tail b t hsb hbt ih =>
    cases hbt with
    | core d hd =>
      rw [State.setCur_cur]
      rw [(Changes.sameElsewhere hsb).turn] at hd
      exact hI _ d hd ih
    | ports p => exact ih
    | shared t ht =>
      rw [ht]
      exact ih

/-! ## Shared operations -/

theorem Changes.read (s : State) (a : Word) (w : Width) : Changes outer s (s.read a w).2 := .ofShared _ rfl

theorem Changes.write (s : State) (a : Word) (w : Width) (v : Word) : Changes outer s (s.write a w v) := .ofShared _ rfl

theorem Changes.writeBase (s : State) (a : Addressing) (rn : Reg) : Changes outer s (s.writeBase a rn) := by
  unfold State.writeBase
  split
  · exact .onCur (.setReg rn a.offaddr)
  · exact .refl

theorem Changes.writeBlockBase (s : State) (w : Bool) (rn : Reg) (v : Word) :
    Changes outer s (s.writeBlockBase w rn v) := by
  unfold State.writeBlockBase
  split
  · exact .onCur (.setReg rn v)
  · exact .refl

theorem Changes.stageReg (s : State) (i : Reg) (addr v : Word) : Changes outer s (s.stageReg i addr v) :=
  .onCur (.stage i s.cur.mode addr v (.inl rfl))

/-- Other scratch lists in the executing slot, with the targets as they were and nothing newly staged. -/
theorem CoreUpdate.setExecSlot {k : CoreId} (c : CoreState) (sl : Slot)
    (hstaged : sl.rmask = c.execSlot.rmask ∨ sl.rmask = 0#16) (hphys : sl.rphys = c.execSlot.rphys) :
    CoreUpdate outer k c (c.setExecSlot sl) := by
  refine .slot c.execIdx sl (fun i hi => ?_) (.inl hphys)
  obtain hsame | hclear := hstaged
  · simpa only [Slot.staged, hsame, CoreState.execSlot] using hi
  · rw [Slot.staged_of_empty hclear] at hi
    cases hi

theorem CoreUpdate.recordAddr {k : CoreId} (c : CoreState) (i : Reg) (addr : Word) :
    CoreUpdate outer k c (c.recordAddr i addr) :=
  .setExecSlot c _ (.inl rfl) rfl

theorem CoreUpdate.accessMem {k : CoreId} (c : CoreState) : CoreUpdate outer k c c.accessMem :=
  .setExecSlot c _ (.inl rfl) rfl

theorem CoreUpdate.clearStaged {k : CoreId} (c : CoreState) : CoreUpdate outer k c c.clearStaged :=
  .setExecSlot c _ (.inr rfl) rfl

theorem Changes.stopWith (s : State) (d : Diag) : Changes outer s (s.stopWith d) := .onCur (.bookkeeping _ rfl)

theorem Changes.charge (s : State) (n : Nat) : Changes outer s (s.onCur fun c => c.charge n) :=
  .onCur (.bookkeeping _ rfl)

theorem Changes.skip (s : State) : Changes outer s s.skip := .charge s _

theorem Changes.loadMany (user : Bool) (l : List Reg) (addr : Word) (s : State) :
    Changes outer s (loadMany user l addr s) := by
  induction l generalizing addr s with
  | nil => exact .refl
  | cons i rest ih =>
    refine ((Changes.read s addr .word).trans (Changes.onCur ?_)).trans (ih (addr + 4#32) _)
    refine .stage i (if user then .usr else s.cur.mode) addr _ ?_
    cases user with
    | false => exact .inl rfl
    | true => exact .inr rfl

theorem Changes.storeMany (value : Reg → Word) (l : List Reg) (addr : Word) (s : State) :
    Changes outer s (storeMany value l addr s) := by
  induction l generalizing addr s with
  | nil => exact .refl
  | cons i rest ih =>
    exact .trans ((Changes.write s addr .word (value i)).trans (Changes.onCur (.recordAddr _ i addr)))
      (ih (addr + 4#32) _)

end

end Sys2Proof.Machine
end

section
/-! SUPPORT. The rules of the instructions as chains of elementary changes, and with them `exec`. -/

namespace Sys2Proof.Machine

/-! ## The control byte of a status word -/

/-- The two words have the same bits 7:0: I, F, T and the mode. -/
def SameControl (p q : Word) : Prop := ∀ j < 8, p.getLsbD j = q.getLsbD j

theorem SameControl.refl (p : Word) : SameControl p p := fun _ _ => rfl

/-- Replacing a bit above the control byte. -/
theorem SameControl.putBit {p q : Word} {i : Nat} (hi : 8 ≤ i) (b : Bool) (h : SameControl p q) :
    SameControl (putBit p i b) q := by
  intro j hj
  rw [getLsbD_putBit, if_neg (by omega)]
  exact h j hj

/-- Replacing a field above the control byte. -/
theorem SameControl.putMasked {p q mask : Word} (hmask : ∀ j < 8, mask.getLsbD j = false) (v : Word)
    (h : SameControl p q) : SameControl (putMasked p mask v) q := by
  intro j hj
  rw [getLsbD_putMasked, hmask j hj]
  exact h j hj

theorem sameControl_psrSetNZ {p q : Word} (n z : Bool) (h : SameControl p q) : SameControl (psrSetNZ p n z) q :=
  (h.putBit (by decide) n).putBit (by decide) z

theorem sameControl_psrSetC {p q : Word} (b : Bool) (h : SameControl p q) : SameControl (psrSetC p b) q :=
  h.putBit (by decide) b

theorem sameControl_psrSetNZCV (p : Word) (n z c v : Bool) : SameControl (psrSetNZCV p n z c v) p :=
  (sameControl_psrSetC c (sameControl_psrSetNZ n z (.refl p))).putBit (by decide) v

theorem sameControl_updateLogical (p res : Word) (co : Option Bool) : SameControl (updateLogical p res co) p := by
  cases co with
  | none => exact sameControl_psrSetNZ _ _ (.refl p)
  | some b => exact sameControl_psrSetC b (sameControl_psrSetNZ _ _ (.refl p))

theorem sameControl_updateArith (p a b res : Word) (add : Bool) : SameControl (updateArith p a b res add) p := by
  cases add <;> exact sameControl_psrSetNZCV p _ _ _ _

/-- No operation of data processing writes the control byte (42_arm_dataproc.md R175 to R190). -/
theorem sameControl_dpCompute (op : DpOp) (p a sh : Word) (co : Option Bool) :
    SameControl (dpCompute op p a sh co).2 p := by
  cases op with
  | and | eor | tst | teq | orr | mov | bic | mvn => exact sameControl_updateLogical p _ co
  | sub | rsb | add | cmp | cmn => exact sameControl_updateArith p _ _ _ _
  | adc | sbc | rsc => exact sameControl_psrSetNZCV p _ _ _ _

theorem sameControl_mulPsr (cfg : Config) (k : CoreId) (c : CoreState) (n z : Bool) :
    SameControl (mulPsr cfg k c n z) c.cpsr :=
  sameControl_psrSetC _ (sameControl_psrSetNZ n z (.refl _))

theorem sameControl_flagsFrom (p v : Word) : SameControl (flagsFrom p v) p :=
  (SameControl.refl p).putMasked (by decide) v

/-! ## Rules of one core -/

/-- The state in which a rule ends, completed or stopped. -/
def Result.final {σ : Type} : Result σ → σ
  | .done s => s
  | .stop _ s => s

/-- Whatever core and state a core rule starts from, it ends after a chain of elementary changes. -/
def CoreRule.Updates (f : CoreRule) : Prop :=
  ∀ (outer : Prop) (k : CoreId) (c : CoreState), CoreUpdates outer k c (f k c).final

section
variable {outer : Prop} {k : CoreId}

theorem CoreUpdates.setReg (c : CoreState) (i : Reg) (v : Word) : CoreUpdates outer k c (c.setReg i v) :=
  .single (.setReg i v)

/-- A register write, then, if `s`, a write of flags. -/
theorem CoreUpdates.setReg_flags (s : Bool) (c : CoreState) (rd : Reg) (v p : Word) (h : SameControl p c.cpsr) :
    CoreUpdates outer k c (if s then (c.setReg rd v).setCpsr k p else c.setReg rd v) := by
  have hreg : CoreUpdate outer k c (c.setReg rd v) := .setReg rd v
  cases s with
  | false => exact .single hreg
  | true =>
    refine .tail (.single hreg) (.flags p ?_)
    rw [CoreState.setReg_cpsr]
    exact h

theorem CoreUpdates.exceptionReturn (c : CoreState) (a v : Word) :
    CoreUpdates outer k c (c.exceptionReturn k a v).final := by
  obtain ⟨hlegal, heq⟩ | ⟨-, heq⟩ := c.exceptionReturn_cases k a v
  · rw [heq]
    exact .single (.restore v hlegal)
  · rw [heq]
    exact .refl

/-- The end of data processing that writes Rd. -/
theorem CoreUpdates.dpWrite (s : Bool) (rd : Reg) (c : CoreState) (res upd : Word) (h : SameControl upd c.cpsr) :
    CoreUpdates outer k c (dpWrite s rd res upd k c).final := by
  unfold Machine.dpWrite
  split
  · exact .setReg_flags s c rd res upd h
  · split
    · exact .exceptionReturn c _ res
    · exact .single (.setReg .r15 res)

theorem CoreUpdates.msrRule (spsr : Bool) (fields : BitVec 4) (operand : CoreState → Word) (c : CoreState) :
    CoreUpdates outer k c (msrRule spsr fields operand k c).final := by
  unfold Machine.msrRule
  split
  · exact .single (.setSpsr _)
  · simp only [msrCpsr]
    split
    · next hlegal =>
      have hmsr := CoreUpdate.msr (outer := outer) fields (operand c) hlegal
      split
      · exact .single hmsr
      · exact .tail (.single hmsr) (.setReg .r15 _)
    · exact .refl

theorem CoreUpdates.mulWrite (s : Bool) (rd : Reg) (res : Word) (cfg : Config) (c : CoreState) :
    CoreUpdates outer k c (mulWrite s rd res cfg k c).final :=
  .setReg_flags s c rd res _ (sameControl_mulPsr cfg k c _ _)

theorem CoreUpdates.mullWrite (s : Bool) (hi lo : Reg) (p : BitVec 64) (cfg : Config) (c : CoreState) :
    CoreUpdates outer k c (mullWrite s hi lo p cfg k c).final := by
  have hlo : CoreUpdate outer k c (c.setReg lo (p.extractLsb' 0 32)) := .setReg lo _
  refine .trans (.single hlo) (CoreUpdates.setReg_flags s _ hi _ _ ?_)
  rw [CoreState.setReg_cpsr]
  exact sameControl_mulPsr cfg k c _ _

theorem CoreUpdates.writeSticky (rd : Reg) (res : Word) (q : Bool) (c : CoreState) :
    CoreUpdates outer k c (writeSticky rd res q k c).final := by
  simp only [Machine.writeSticky, CoreState.setReg_cpsr]
  exact .setReg_flags q c rd res _ ((SameControl.refl _).putBit (by decide) true)

theorem CoreUpdates.thumbCondRule (cond : Cond) (off : Word) (c : CoreState) :
    CoreUpdates outer k c (thumbCondRule cond off k c).final := by
  unfold Machine.thumbCondRule
  split
  · exact .single (.setReg .r15 _)
  · exact .refl

end

/-! ## Rules of the machine -/

/-- Whatever state a rule starts from, it ends after a chain of elementary changes. -/
def Rule.Changing (r : Rule) : Prop := ∀ (outer : Prop) (s : State), Changes outer s (r s.turn s).final

theorem onCore_changing {f : CoreRule} (h : f.Updates) : Rule.Changing (onCore f) := by
  intro outer s
  have hf := h outer s.turn s.cur
  cases hd : f s.turn s.cur with
  | done c =>
    rw [onCore_done hd]
    rw [hd] at hf
    exact Changes.ofCore hf
  | stop d c =>
    rw [onCore_stop hd]
    rw [hd] at hf
    exact Changes.ofCore hf

theorem onCoreCfg_changing {f : Config → CoreRule} (h : ∀ cfg, (f cfg).Updates) : Rule.Changing (onCoreCfg f) :=
  fun outer s => onCore_changing (h s.cfg) outer s

/-- A loader reads memory once. -/
def Loader.Reads (ld : Loader) : Prop := ∀ k s a, ∃ a' w, (ld k s a).2 = (State.read s a' w).2

/-- A storer writes memory once. -/
def Storer.Writes (st : Storer) : Prop := ∀ s a v, ∃ a' w, st s a v = State.write s a' w v

theorem loadWord_reads : Loader.Reads loadWord := fun _ _ _ => ⟨_, _, rfl⟩

theorem loadByte_reads : Loader.Reads loadByte := fun _ _ _ => ⟨_, _, rfl⟩

theorem loadSignedByte_reads : Loader.Reads loadSignedByte := fun _ _ _ => ⟨_, _, rfl⟩

theorem loadHalf_reads : Loader.Reads loadHalf := by
  intro k s a
  cases k <;> exact ⟨_, _, rfl⟩

theorem loadSignedHalf_reads : Loader.Reads loadSignedHalf := by
  intro k s a
  unfold loadSignedHalf
  split <;> exact ⟨_, _, rfl⟩

theorem storeWord_writes : Storer.Writes storeWord := fun _ _ _ => ⟨_, _, rfl⟩

theorem storeByte_writes : Storer.Writes storeByte := fun _ _ _ => ⟨_, _, rfl⟩

theorem storeHalf_writes : Storer.Writes storeHalf := fun _ _ _ => ⟨_, _, rfl⟩

theorem Loader.Reads.changes {outer : Prop} {ld : Loader} (h : ld.Reads) (k : CoreId) (s : State) (a : Word) :
    Changes outer s (ld k s a).2 := by
  obtain ⟨a', w, heq⟩ := h k s a
  rw [heq]
  exact Changes.read s a' w

theorem Storer.Writes.changes {outer : Prop} {st : Storer} (h : st.Writes) (s : State) (a v : Word) :
    Changes outer s (st s a v) := by
  obtain ⟨a', w, heq⟩ := h s a v
  rw [heq]
  exact Changes.write s a' w v

/-- The end of a rule that completes. -/
theorem Changes.done {outer : Prop} {s t : State} (h : Changes outer s t) : Changes outer s (Result.done t).final := h

theorem loadRule_changing {ld : Loader} (h : ld.Reads) (rn rd : Reg) (a : CoreState → Addressing) :
    Rule.Changing (loadRule ld rn rd a) :=
  fun _ s => ((h.changes s.turn s _).trans (Changes.writeBase _ _ rn)).trans (Changes.stageReg _ rd _ _)

theorem storeRule_changing {st : Storer} (h : st.Writes) (rn rd : Reg) (a : CoreState → Addressing) :
    Rule.Changing (storeRule st rn rd a) :=
  fun _ s => ((h.changes s _ _).trans (Changes.onCur (.recordAddr _ rd _))).trans (Changes.writeBase _ _ rn)

theorem ldrdRule_changing (rn rd : Reg) (a : CoreState → Addressing) : Rule.Changing (ldrdRule rn rd a) := by
  intro outer s
  refine .trans ?_ (Changes.stageReg _ rd.succ _ _)
  refine .trans ?_ (Changes.stageReg _ rd _ _)
  exact ((Changes.read s _ .word).trans (Changes.read _ _ .word)).trans (Changes.writeBase _ _ rn)

theorem strdRule_changing (rn rd : Reg) (a : CoreState → Addressing) : Rule.Changing (strdRule rn rd a) := by
  intro outer s
  refine .trans ?_ (Changes.writeBase _ _ rn)
  refine ((Changes.write s _ .word _).trans (Changes.write _ _ .word _)).trans (Changes.ofCore ?_)
  exact .tail (.single (.recordAddr _ rd _)) (.recordAddr _ rd.succ _)

theorem swapRule_changing {ld : Loader} {st : Storer} (hld : ld.Reads) (hst : st.Writes) (rn rd rm : Reg) :
    Rule.Changing (swapRule ld st rn rd rm) :=
  fun _ s => ((hld.changes s.turn s _).trans (hst.changes _ _ _)).trans (Changes.stageReg _ rd _ _)

theorem ldmRule_changing (bm : BlockMode) (s w : Bool) (rn : Reg) (list : BitVec 16) :
    Rule.Changing (ldmRule bm s w rn list) :=
  fun _ st => (Changes.loadMany _ _ _ st).trans (Changes.writeBlockBase _ w rn _)

theorem stmRule_changing (bm : BlockMode) (s w : Bool) (rn : Reg) (list : BitVec 16) :
    Rule.Changing (stmRule bm s w rn list) :=
  fun _ st => (Changes.storeMany _ _ _ st).trans (Changes.writeBlockBase _ w rn _)

theorem thumbLoadRule_changing {ld : Loader} (h : ld.Reads) (rd : LoReg) (addr : CoreState → Word) :
    Rule.Changing (thumbLoadRule ld rd addr) :=
  fun _ s => (h.changes s.turn s _).trans (Changes.stageReg _ (loReg rd) _ _)

theorem thumbStoreRule_changing {st : Storer} (h : st.Writes) (rd : LoReg) (addr : CoreState → Word) :
    Rule.Changing (thumbStoreRule st rd addr) :=
  fun _ s => Changes.done ((h.changes s _ _).trans (Changes.onCur (.recordAddr _ (loReg rd) _)))

theorem pushRule_changing (list : BitVec 16) : Rule.Changing (pushRule list) :=
  fun _ s => Changes.done ((Changes.storeMany _ _ _ s).trans (Changes.onCur (.setReg .r13 _)))

theorem popRule_changing (list : BitVec 16) : Rule.Changing (popRule list) :=
  fun _ s => Changes.done ((Changes.loadMany _ _ _ s).trans (Changes.onCur (.setReg .r13 _)))

theorem thumbStmRule_changing (rb : LoReg) (list : BitVec 16) : Rule.Changing (thumbStmRule rb list) :=
  fun _ s => Changes.done ((Changes.storeMany _ _ _ s).trans (Changes.onCur (.setReg (loReg rb) _)))

theorem thumbLdmRule_changing (rb : LoReg) (list : BitVec 16) : Rule.Changing (thumbLdmRule rb list) :=
  fun _ s => Changes.done ((Changes.loadMany _ _ _ s).trans (Changes.onCur (.setReg (loReg rb) _)))

theorem Changes.enterHalted {outer : Prop} (s : State) : Changes outer s s.enterHalted := .onCur (.bookkeeping _ rfl)

theorem Changes.enterWaitLoop {outer : Prop} (s : State) (n : Word) : Changes outer s (s.enterWaitLoop n) :=
  .onCur (.bookkeeping _ rfl)

theorem Changes.enterWaitInterrupt {outer : Prop} (s : State) (sel m : Word) :
    Changes outer s (s.enterWaitInterrupt sel m) := by
  unfold State.enterWaitInterrupt
  exact .trans (Changes.ofPorts s _) (Changes.onCur (.bookkeeping _ rfl))

theorem Changes.biosAct {outer : Prop} (s : State) (a : BiosAction) : Changes outer s (s.biosAct a) := by
  cases a with
  | setReg i v =>
    simp only [State.biosAct]
    split
    · exact .refl
    · exact Changes.onCur (.setReg i v)
  | read addr w => exact Changes.read s _ w
  | write addr w v => exact Changes.write s _ w v

theorem Changes.biosActs {outer : Prop} (l : List BiosAction) (s : State) :
    Changes outer s (l.foldl State.biosAct s) := by
  induction l generalizing s with
  | nil => exact .refl
  | cons a rest ih => exact .trans (Changes.biosAct s a) (ih _)

theorem Changes.biosService {outer : Prop} (s : State) (k : CoreId) (n : BitVec 8) :
    Changes outer s (s.biosService k n) :=
  .trans (Changes.biosActs _ s) (Changes.ofShared _ rfl)

theorem hleSwi_changing (n : BitVec 8) : Rule.Changing (hleSwi n) := by
  intro outer s
  unfold hleSwi
  split
  · exact Changes.enterWaitLoop s _
  · exact Changes.enterWaitInterrupt s _ _
  · exact Changes.enterWaitInterrupt s _ _
  · exact Changes.enterHalted s
  · split
    · exact Changes.biosService s _ n
    · exact .refl

theorem mcrRule_changing (r : Cp15Reg) (rd : Reg) : Rule.Changing (mcrRule r rd) := by
  intro outer s
  have hwrite : Changes outer s (s.cp15Write r (s.cur.reg rd)) := by
    unfold State.cp15Write
    split
    · exact Changes.ofShared _ rfl
    · exact .refl
  unfold mcrRule
  split
  · exact .refl
  · dsimp only
    split
    · exact hwrite.trans (Changes.enterHalted _)
    · exact hwrite

theorem mrcRule_changing (r : Cp15Reg) (rd : Reg) : Rule.Changing (mrcRule r rd) := by
  intro outer s
  have hread : Changes outer s (s.cp15Read r).2 := by
    unfold State.cp15Read
    split
    · exact Changes.ofShared _ rfl
    · exact .refl
  have hturn := (Changes.sameElsewhere hread).turn
  unfold mrcRule
  split
  · exact .refl
  · refine Changes.done (hread.trans (Changes.onCur ?_))
    rw [hturn]
    split
    · exact .flags _ (sameControl_flagsFrom _ _)
    · exact .setReg rd _

/-- SWI: a service in HLE mode, an exception entry in TRAP mode (60_exceptions.md R365, R366). -/
theorem swiRule_changes {outer : Prop} (n : BitVec 8) (s : State) (htrap : s.cfg.swiMode = .trap → outer) :
    Changes outer s (swiRule n s.turn s).final := by
  cases hmode : s.cfg.swiMode with
  | hle =>
    rw [swiRule_hle hmode]
    exact hleSwi_changing n outer s
  | trap =>
    rw [swiRule_trap hmode]
    exact Changes.ofCore (.single (.enter _ .svc _ _ false (htrap hmode)))

/-! ## The common frame of the instructions -/

section
variable {outer : Prop}

/-- The commit of a loaded r15. -/
theorem CoreUpdates.loadPc {k : CoreId} (c : CoreState) (v : Word) : CoreUpdates outer k c (c.loadPc k v) := by
  cases k with
  | fast => exact .single (.exchange _ v)
  | slow => exact .single (.setReg .r15 v)

/-- The writeback stage of a core. -/
theorem CoreUpdates.writeStaged {k : CoreId} (c : CoreState) (w : PcCommit) :
    CoreUpdates outer k c (c.writeStaged k w).final := by
  have hcommit : CoreUpdates outer k c _ := .single .commit
  unfold CoreState.writeStaged
  dsimp only
  split
  · cases w with
    | load => exact (hcommit.trans (CoreUpdates.loadPc _ _)).tail (.clearStaged _)
    | restore =>
      have hret := hcommit.trans (CoreUpdates.exceptionReturn _ c.instrAddr (c.execSlot.rval.get .r15))
      dsimp only
      split
      · next heq =>
        rw [heq] at hret
        exact hret.tail (.clearStaged _)
      · next heq =>
        rw [heq] at hret
        exact hret
  · exact hcommit.tail (.clearStaged _)

/-- The writeback stage of the machine. -/
theorem Changes.writeStaged (s : State) (w : PcCommit) : Changes outer s (s.writeStaged s.turn w).final := by
  have h : CoreUpdates outer s.turn s.cur (s.cur.accessMem.writeStaged s.turn w).final :=
    .trans (.single (.accessMem _)) (CoreUpdates.writeStaged _ w)
  unfold State.writeStaged
  split
  · next heq =>
    rw [heq] at h
    exact Changes.ofCore h
  · next heq =>
    rw [heq] at h
    exact Changes.ofCore h

/-- A recognized instruction, from what its rule does. -/
theorem Changes.perform {s : State} {w : PcCommit} {r : Rule} (h : Changes outer s (r s.turn s).final) :
    Changes outer s (s.perform w r) := by
  cases hr : r s.turn s with
  | stop d t =>
    rw [hr] at h
    rw [State.perform_of_stop hr]
    exact h.trans (Changes.stopWith t d)
  | done t =>
    rw [hr] at h
    have hturn : t.turn = s.turn := (Changes.sameElsewhere h).turn
    have hw := h.trans (Changes.writeStaged t w)
    rw [hturn] at hw
    simp only [State.perform, hr]
    split
    · next heq =>
      rw [heq] at hw
      exact hw.trans (Changes.stopWith _ _)
    · next heq =>
      rw [heq] at hw
      exact hw.trans (Changes.charge _ _)

theorem Changes.runAlways {i : Instr} {w : PcCommit} {r : Rule} {s t : State}
    (h : runAlways i w r s = .next t) (hr : Changes outer s (r s.turn s).final) : Changes outer s t := by
  unfold Machine.runAlways at h
  split at h <;> cases h
  · exact Changes.perform hr
  · exact Changes.stopWith s _

theorem Changes.runCond {i : Instr} {c : Cond} {w : PcCommit} {r : Rule} {s t : State}
    (h : runCond i c w r s = .next t) (hr : Changes outer s (r s.turn s).final) : Changes outer s t := by
  unfold Machine.runCond at h
  split at h
  · exact Changes.runAlways h hr
  · cases h
    exact Changes.skip s

theorem Changes.runFastUncond {i : Instr} {r : Rule} {s t : State}
    (h : runFastUncond i r s = .next t) (hr : Changes outer s (r s.turn s).final) : Changes outer s t := by
  unfold Machine.runFastUncond at h
  split at h
  · exact Changes.runAlways h hr
  · cases h
    exact Changes.skip s

end

end Sys2Proof.Machine
end

section
/-! SUPPORT. `exec`, the pipeline cycle and the step as chains of elementary changes. -/

namespace Sys2Proof.Machine

/-- Every instruction is a chain of elementary changes, among them the entry of an exception only for a trapping SWI. -/
theorem exec_changes {outer : Prop} {i : Instr} {s t : State} (h : exec i s = .next t)
    (htrap : s.cfg.swiMode = .trap → i.swi? ≠ none → outer) : Changes outer s t := by
  cases i with
  | andShiftImm | andShiftReg | andImm | eorShiftImm | eorShiftReg | eorImm | subShiftImm | subShiftReg | subImm
  | rsbShiftImm | rsbShiftReg | rsbImm | addShiftImm | addShiftReg | addImm | adcShiftImm | adcShiftReg | adcImm
  | sbcShiftImm | sbcShiftReg | sbcImm | rscShiftImm | rscShiftReg | rscImm | orrShiftImm | orrShiftReg | orrImm
  | movShiftImm | movShiftReg | movImm | bicShiftImm | bicShiftReg | bicImm | mvnShiftImm | mvnShiftReg | mvnImm =>
    exact Changes.runCond h
      (onCore_changing (fun _ _ c => .dpWrite _ _ c _ _ (sameControl_dpCompute _ _ _ _ _)) outer s)
  | tstShiftImm | tstShiftReg | tstImm | teqShiftImm | teqShiftReg | teqImm | cmpShiftImm | cmpShiftReg | cmpImm
  | cmnShiftImm | cmnShiftReg | cmnImm =>
    exact Changes.runCond h
      (onCore_changing (fun _ _ _ => .single (.flags _ (sameControl_dpCompute _ _ _ _ _))) outer s)
  | mrs | clz | smulwY | smulXY => exact Changes.runCond h (onCore_changing (fun _ _ c => .setReg c _ _) outer s)
  | msrReg | msrImm => exact Changes.runCond h (onCore_changing (fun _ _ c => .msrRule _ _ _ c) outer s)
  | mul | mla => exact Changes.runCond h (onCoreCfg_changing (fun _ _ _ c => .mulWrite _ _ _ _ c) outer s)
  | umull | umlal | smull | smlal =>
    exact Changes.runCond h (onCoreCfg_changing (fun _ _ _ c => .mullWrite _ _ _ _ _ c) outer s)
  | qadd | qsub | qdadd | qdsub | smlaXY | smlawY =>
    exact Changes.runCond h (onCore_changing (fun _ _ c => .writeSticky _ _ _ c) outer s)
  | smlalXY =>
    exact Changes.runCond h (onCore_changing (fun _ _ _ => .tail (.single (.setReg _ _)) (.setReg _ _)) outer s)
  | ldrImm | ldrReg | ldrtImm | ldrtReg => exact Changes.runCond h (loadRule_changing loadWord_reads _ _ _ outer s)
  | ldrbImm | ldrbReg | ldrbtImm | ldrbtReg => exact Changes.runCond h (loadRule_changing loadByte_reads _ _ _ outer s)
  | ldrh => exact Changes.runCond h (loadRule_changing loadHalf_reads _ _ _ outer s)
  | ldrsb => exact Changes.runCond h (loadRule_changing loadSignedByte_reads _ _ _ outer s)
  | ldrsh => exact Changes.runCond h (loadRule_changing loadSignedHalf_reads _ _ _ outer s)
  | strImm | strReg | strtImm | strtReg => exact Changes.runCond h (storeRule_changing storeWord_writes _ _ _ outer s)
  | strbImm | strbReg | strbtImm | strbtReg =>
    exact Changes.runCond h (storeRule_changing storeByte_writes _ _ _ outer s)
  | strh => exact Changes.runCond h (storeRule_changing storeHalf_writes _ _ _ outer s)
  | ldrd => exact Changes.runCond h (ldrdRule_changing _ _ _ outer s)
  | strd => exact Changes.runCond h (strdRule_changing _ _ _ outer s)
  | ldm => exact Changes.runCond h (ldmRule_changing _ _ _ _ _ outer s)
  | stm => exact Changes.runCond h (stmRule_changing _ _ _ _ _ outer s)
  | swp => exact Changes.runCond h (swapRule_changing loadWord_reads storeWord_writes _ _ _ outer s)
  | swpb => exact Changes.runCond h (swapRule_changing loadByte_reads storeByte_writes _ _ _ outer s)
  | pld => exact Changes.runFastUncond h .refl
  | b => exact Changes.runCond h (onCore_changing (fun _ _ c => .setReg c .r15 _) outer s)
  | bl =>
    exact Changes.runCond h (onCore_changing (fun _ _ _ => .tail (.single (.setReg .r14 _)) (.setReg .r15 _)) outer s)
  | bx => exact Changes.runCond h (onCore_changing (fun _ _ _ => .single (.exchange _ _)) outer s)
  | blxImm =>
    exact Changes.runFastUncond h
      (onCore_changing (fun _ _ _ => .tail (.single (.setReg .r14 _)) (.exchange _ _)) outer s)
  | blxReg =>
    exact Changes.runCond h (onCore_changing (fun _ _ _ => .tail (.single (.setReg .r14 _)) (.exchange _ _)) outer s)
  | swi c n =>
    exact Changes.runCond h (swiRule_changes _ s fun hmode => htrap hmode (Option.some_ne_none _))
  | bkpt => exact Changes.runCond (i := .bkpt _) (c := .al) h .refl
  | mcr => exact Changes.runCond h (mcrRule_changing _ _ outer s)
  | mrc => exact Changes.runCond h (mrcRule_changing _ _ outer s)
  | tLslImm | tLsrImm | tAsrImm | tLslAlu | tLsrAlu | tAsrAlu | tRorAlu =>
    exact Changes.runAlways h
      (onCore_changing (fun _ _ c => .setReg_flags true c _ _ _ (sameControl_updateLogical _ _ _)) outer s)
  | tAddReg | tSubReg | tAddImm3 | tSubImm3 | tMovImm8 | tAddImm8 | tSubImm8 | tAndAlu | tEorAlu | tAdcAlu | tSbcAlu
  | tNegAlu | tOrrAlu | tBicAlu | tMvnAlu =>
    exact Changes.runAlways h
      (onCore_changing (fun _ _ c => .setReg_flags true c _ _ _ (sameControl_dpCompute _ _ _ _ _)) outer s)
  | tCmpImm8 | tTstAlu | tCmpAlu | tCmnAlu | tCmpHi =>
    exact Changes.runAlways h
      (onCore_changing (fun _ _ _ => .single (.flags _ (sameControl_dpCompute _ _ _ _ _))) outer s)
  | tMulAlu =>
    exact Changes.runAlways h
      (onCoreCfg_changing (fun _ _ _ c => .setReg_flags true c _ _ _ (sameControl_mulPsr _ _ _ _ _)) outer s)
  | tAddHi | tMovHi | tAddPc | tAddSp | tIncSp | tDecSp | tBlPrefix =>
    exact Changes.runAlways h (onCore_changing (fun _ _ c => .setReg c _ _) outer s)
  | tB => exact Changes.runAlways h (onCore_changing (fun _ _ c => .setReg c .r15 _) outer s)
  | tBx => exact Changes.runAlways h (onCore_changing (fun _ _ _ => .single (.exchange _ _)) outer s)
  | tBlxReg | tBlxSuffix =>
    exact Changes.runAlways h (onCore_changing (fun _ _ _ => .tail (.single (.setReg .r14 _)) (.exchange _ _)) outer s)
  | tBlSuffix =>
    exact Changes.runAlways h (onCore_changing (fun _ _ _ => .tail (.single (.setReg .r14 _)) (.setReg .r15 _)) outer s)
  | tLdrPc | tLdrReg | tLdrImm | tLdrSp => exact Changes.runAlways h (thumbLoadRule_changing loadWord_reads _ _ outer s)
  | tLdrbReg | tLdrbImm => exact Changes.runAlways h (thumbLoadRule_changing loadByte_reads _ _ outer s)
  | tLdrhReg | tLdrhImm => exact Changes.runAlways h (thumbLoadRule_changing loadHalf_reads _ _ outer s)
  | tLdrsbReg => exact Changes.runAlways h (thumbLoadRule_changing loadSignedByte_reads _ _ outer s)
  | tLdrshReg => exact Changes.runAlways h (thumbLoadRule_changing loadSignedHalf_reads _ _ outer s)
  | tStrReg | tStrImm | tStrSp => exact Changes.runAlways h (thumbStoreRule_changing storeWord_writes _ _ outer s)
  | tStrbReg | tStrbImm => exact Changes.runAlways h (thumbStoreRule_changing storeByte_writes _ _ outer s)
  | tStrhReg | tStrhImm => exact Changes.runAlways h (thumbStoreRule_changing storeHalf_writes _ _ outer s)
  | tPush => exact Changes.runAlways h (pushRule_changing _ outer s)
  | tPop => exact Changes.runAlways h (popRule_changing _ outer s)
  | tStmia => exact Changes.runAlways h (thumbStmRule_changing _ _ outer s)
  | tLdmia => exact Changes.runAlways h (thumbLdmRule_changing _ _ outer s)
  | tBCond => exact Changes.runAlways h (onCore_changing (fun _ _ c => .thumbCondRule _ _ c) outer s)
  | tSwi n =>
    exact Changes.runAlways h (swiRule_changes _ s fun hmode => htrap hmode (Option.some_ne_none _))

/-! ## The pipeline cycle -/

theorem Changes.fetch {outer : Prop} (s : State) : Changes outer s s.fetch := by
  unfold State.fetch
  refine .trans (Changes.read s s.cur.fetchAccess.1 s.cur.fetchAccess.2) (Changes.onCur ?_)
  refine .slot _ _ (fun i hi => ?_) (.inr rfl)
  rw [Slot.staged_of_empty rfl] at hi
  cases hi

theorem Changes.frontEnd {outer : Prop} (s : State) : Changes outer s s.frontEnd := by
  refine .trans (Changes.fetch s) ?_
  unfold State.frontEnd CoreState.decodeStage
  dsimp only
  by_cases hraw : (s.fetch.cur.slot s.fetch.cur.decodeIdx).tag = .RAW
  · refine Changes.onCur ?_
    rw [if_pos hraw]
    exact .slot _ _ (fun _ hi => hi) (.inl rfl)
  · refine Changes.onCur ?_
    rw [if_neg hraw]
    exact .bookkeeping _ rfl

theorem Changes.executeUnrecognized {outer : Prop} {s t : State} (h : s.executeUnrecognized = .next t) :
    Changes outer s t := by
  simp only [State.executeUnrecognized] at h
  split at h <;> cases h
  · exact Changes.stopWith s _
  · exact Changes.skip s

theorem Changes.executeSlot {s t : State} (h : s.executeSlot = .next t) : Changes True s t := by
  simp only [State.executeSlot] at h
  split at h
  · split at h
    · exact exec_changes h fun _ _ => trivial
    · exact Changes.executeUnrecognized h
  · exact Changes.executeUnrecognized h

theorem Changes.irqDispatch (s : State) : Changes True s s.irqDispatch := by
  unfold State.irqDispatch
  split
  · exact Changes.onCur (.enter _ _ _ _ _ trivial)
  · exact .refl

theorem Changes.endCycle (s : State) : Changes True s (s.onCur CoreState.endCycle) := Changes.onCur (.endCycle trivial)

theorem Changes.afterExecute (s : State) : Changes True s s.afterExecute := by
  unfold State.afterExecute
  split
  · split
    · exact .trans (Changes.irqDispatch s) (Changes.endCycle _)
    · exact Changes.endCycle s
  · exact .refl

theorem Changes.pipelineCycle {s t : State} (h : s.pipelineCycle = .next t) : Changes True s t := by
  refine .trans (Changes.frontEnd s) ?_
  simp only [State.pipelineCycle] at h
  split at h
  · split at h
    · next u hu =>
      cases h
      have hrecord : Changes True s.frontEnd s.frontEnd.recordDispatch := Changes.onCur (.bookkeeping _ rfl)
      exact .trans (hrecord.trans (Changes.executeSlot hu)) (Changes.afterExecute u)
    · cases h
    · cases h
  · cases h
    exact .trans (Changes.onCur (.bookkeeping _ rfl)) (Changes.endCycle _)

/-! ## The tick -/

theorem Changes.pulse (s : State) : Changes True s s.pulse := by
  unfold State.pulse
  split
  · exact .refl
  · exact .trans (.trans (Changes.ofPorts s _) (Changes.ofPorts _ _)) (Changes.ofShared _ rfl)

theorem Changes.beginTick (s : State) : Changes True s s.beginTick :=
  .trans (.trans (Changes.ofShared _ rfl) (Changes.onCur (.bookkeeping _ rfl))) (Changes.pulse _)

theorem Changes.idleHalted (s : State) : Changes True s s.idleHalted := by
  unfold State.idleHalted
  split
  · exact Changes.onCur (.bookkeeping _ rfl)
  · exact .refl

theorem Changes.idleWaitInterrupt (s : State) : Changes True s s.idleWaitInterrupt := by
  unfold State.idleWaitInterrupt
  split
  · exact .trans (Changes.ofPorts s _) (Changes.onCur (.bookkeeping _ rfl))
  · exact .refl

theorem Changes.idleStep (s : State) : Changes True s s.idleStep := by
  refine .trans ?_ (Changes.charge _ _)
  cases s.cur.idleState with
  | running => exact .refl
  | halted => exact Changes.idleHalted s
  | waitLoop => exact Changes.onCur (.bookkeeping _ rfl)
  | waitInterrupt => exact Changes.idleWaitInterrupt s

/-- The work of a tick: elementary changes, then the budget and the turn. -/
theorem work_changes {s t : State} (h : s.work = .next t) : ∃ u, Changes True s u ∧ t = u.settle := by
  simp only [State.work] at h
  split at h
  · split at h
    · next u hu =>
      cases h
      exact ⟨u, .trans (Changes.beginTick s) (Changes.pipelineCycle hu), rfl⟩
    · cases h
    · cases h
  · cases h
    exact ⟨_, .trans (Changes.beginTick s) (Changes.idleStep _), rfl⟩

/-- A step: elementary changes, then, if the tick did its work, the budget and the turn. -/
theorem step_changes {s t : State} (h : step s = .next t) : ∃ u, Changes True s u ∧ (t = u ∨ t = u.settle) := by
  have hwork {s' : State} (hs : Changes True s s') (hw : s'.work = .next t) :
      ∃ u, Changes True s u ∧ (t = u ∨ t = u.settle) := by
    obtain ⟨u, hu, ht⟩ := work_changes hw
    exact ⟨u, hs.trans hu, .inr ht⟩
  simp only [step, schedulerTick] at h
  split at h
  · cases h
    exact ⟨s, .refl, .inl rfl⟩
  split at h
  · cases h
    exact ⟨_, Changes.ofShared _ rfl, .inl rfl⟩
  split at h
  · cases h
    exact ⟨s, .refl, .inl rfl⟩
  split at h
  · exact hwork .refl h
  split at h
  · exact hwork (Changes.ofShared _ rfl) h
  split at h
  · cases h
    exact ⟨_, Changes.ofShared _ rfl, .inl rfl⟩
  · exact hwork .refl h

/-- Settling the budget changes the budget and, with a handoff, the turn. -/
theorem State.settle_cases (s : State) :
    (∃ b, s.settle = { s with budget := b }) ∨ ∃ b, s.settle = State.handoff { s with budget := b } := by
  unfold State.settle
  dsimp only
  split
  · exact .inr ⟨_, rfl⟩
  · exact .inl ⟨_, rfl⟩

/-- Settling the budget leaves the cores, the ports, the parameters and the breakpoints alone. -/
theorem State.settle_frame (s : State) :
    s.settle.cores = s.cores ∧ s.settle.ports = s.ports ∧ s.settle.cfg = s.cfg
      ∧ s.settle.breakpoints = s.breakpoints := by
  obtain ⟨b, h⟩ | ⟨b, h⟩ := s.settle_cases <;> rw [h] <;> exact ⟨rfl, rfl, rfl, rfl⟩

/-- An invariant of the cores that every elementary change of a core keeps is kept by every step. -/
theorem step_keeps_cores {I : CoreId → CoreState → Prop}
    (hI : ∀ k c d, CoreUpdate True k c d → I k c → I k d) {s t : State} (hs : ∀ k, I k (s.cores.get k))
    (h : step s = .next t) : ∀ k, I k (t.cores.get k) := by
  obtain ⟨u, hsu, htu⟩ := step_changes h
  have hcores : t.cores = u.cores := by
    obtain rfl | rfl := htu
    · rfl
    · obtain ⟨hc, -⟩ := u.settle_frame
      exact hc
  intro k
  rw [hcores]
  by_cases hk : k = s.turn
  · subst hk
    have hcur : I s.turn u.cur := Changes.keep (hI s.turn) hsu (hs s.turn)
    rwa [State.cur, (Changes.sameElsewhere hsu).turn] at hcur
  · rw [(Changes.sameElsewhere hsu).cores k hk]
    exact hs k

/-! ## The turn, and the other core -/

/-- Exactly one turn, as a value of the flags. -/
theorem State.turnInv_iff {s : State} :
    s.TurnInv ↔ s.myTurn = ⟨decide (s.busOwner = .fast), decide (s.busOwner = .slow)⟩ := by
  have hall (P : CoreId → Prop) : (∀ k, P k) ↔ P .fast ∧ P .slow :=
    ⟨fun h => ⟨h .fast, h .slow⟩, fun h k => match k with | .fast => h.1 | .slow => h.2⟩
  unfold State.TurnInv
  cases hm : s.myTurn
  cases hb : s.busOwner <;> simp [hall, PerCore.get, and_comm]

/-- A handoff keeps exactly one turn. -/
theorem State.handoff_turnInv {s : State} (h : s.TurnInv) : s.handoff.TurnInv := by
  rw [State.turnInv_iff] at h ⊢
  unfold State.handoff
  cases hb : s.busOwner <;> simp [h, hb]

/-- Settling the budget keeps exactly one turn. -/
theorem State.settle_turnInv {s : State} (h : s.TurnInv) : s.settle.TurnInv := by
  obtain ⟨b, hb⟩ | ⟨b, hb⟩ := s.settle_cases <;> rw [hb]
  · exact h
  · exact State.handoff_turnInv h

/-- Settles O14: a step is elementary changes, which leave the flags of the turn alone, and at most one handoff. -/
theorem stepKeepsTurn : Obligations.StepKeepsTurn := by
  unfold Obligations.StepKeepsTurn
  intro s t hs h
  obtain ⟨u, hsu, htu⟩ := step_changes h
  have hsame := Changes.sameElsewhere hsu
  have hu : u.TurnInv := by
    rw [State.turnInv_iff] at hs ⊢
    rw [hsame.myTurn, hsame.busOwner, hs]
  obtain rfl | rfl := htu
  · exact hu
  · exact State.settle_turnInv hu

/-- Settles O15: no elementary change reaches the other core, its ports, the parameters or the breakpoints, and neither
does the settling of the budget. -/
theorem stepLeavesOtherCore : Obligations.StepLeavesOtherCore := by
  unfold Obligations.StepLeavesOtherCore
  intro s t k hk h
  obtain ⟨u, hsu, htu⟩ := step_changes h
  have hsame := Changes.sameElsewhere hsu
  have hu : u.cores.get k = s.cores.get k ∧ u.ports.get k = s.ports.get k ∧ u.cfg = s.cfg
      ∧ u.breakpoints = s.breakpoints := ⟨hsame.cores k hk, hsame.ports k hk, hsame.cfg, hsame.breakpoints⟩
  obtain rfl | rfl := htu
  · exact hu
  · obtain ⟨hcores, hports, hcfg, hbreak⟩ := u.settle_frame
    rw [hcores, hports, hcfg, hbreak]
    exact hu

end Sys2Proof.Machine
end

section
/-! SUPPORT. The invariants of a core that every elementary change keeps: legal modes and clean status registers, an
aligned program counter, and the confinement of an instruction of user mode. -/

namespace Sys2Proof.Machine

/-! ## Legal modes -/

/-- The mode field is the five low bits. -/
theorem psrM_congr {p q : Word} (h : ∀ j < 5, p.getLsbD j = q.getLsbD j) : psrM p = psrM q := by
  apply BitVec.eq_of_getLsbD_eq
  intro j hj
  simpa [psrM, BitVec.getLsbD_extractLsb', hj] using h j hj

/-- A control byte as before has the mode and the state as before. -/
theorem SameControl.psrM {p q : Word} (h : SameControl p q) : psrM p = psrM q := psrM_congr fun j hj => h j (by omega)

theorem SameControl.psrT {p q : Word} (h : SameControl p q) : psrT p = psrT q := h 5 (by decide)

theorem SameControl.psrLegal {p q : Word} (h : SameControl p q) : psrLegal p = psrLegal q := by
  simp only [Machine.psrLegal, psrMode?, h.psrM]

@[simp] theorem psrLegal_mask (w : Word) (k : CoreId) : psrLegal (w &&& psrMask k) = psrLegal w := by
  simp only [psrLegal, psrMode?_mask]

@[simp] theorem psrLegal_psrSetT (w : Word) (b : Bool) : psrLegal (psrSetT w b) = psrLegal w := by
  simp only [psrLegal, psrMode?_psrSetT]

@[simp] theorem psrM_psrSetI (w : Word) (b : Bool) : psrM (psrSetI w b) = psrM w :=
  psrM_congr fun j hj => by rw [psrSetI, getLsbD_putBit, if_neg (by omega)]

@[simp] theorem psrM_psrSetF (w : Word) (b : Bool) : psrM (psrSetF w b) = psrM w :=
  psrM_congr fun j hj => by rw [psrSetF, getLsbD_putBit, if_neg (by omega)]

/-- An exception entry goes to the mode it names. -/
theorem CoreState.enterException_legal (c : CoreState) (k : CoreId) (vb : Word) (m : Mode) (o lr : Word) (f : Bool) :
    psrLegal (c.enterException k vb m o lr f).cpsr = true := by
  rw [CoreState.enterException_cpsr]
  cases f <;> simp [psrLegal, psrMode?]

/-! ## The status registers (10_state.md R27, R29) -/

theorem psrClean_mask (k : CoreId) (w : Word) : PsrClean k (w &&& psrMask k) := psrMask_clean w k

/-- A change that keeps the saved status registers and writes a legal cpsr under the mask. -/
theorem CoreState.PsrInv.of_cpsr {k : CoreId} {c d : CoreState} {p : Word} (h : c.PsrInv k)
    (hcpsr : d.cpsr = p &&& psrMask k) (hlegal : psrLegal p = true) (hfiq : d.spsrFiq = c.spsrFiq)
    (hsvc : d.spsrSvc = c.spsrSvc) (habt : d.spsrAbt = c.spsrAbt) (hirq : d.spsrIrq = c.spsrIrq)
    (hund : d.spsrUnd = c.spsrUnd) : d.PsrInv k := by
  obtain ⟨-, -, hclean⟩ := h
  refine ⟨?_, ?_, ?_⟩
  · rw [hcpsr, psrLegal_mask, hlegal]
  · rw [hcpsr]
    exact psrClean_mask k p
  · rwa [hfiq, hsvc, habt, hirq, hund]

/-- A change that keeps every status register. -/
theorem CoreState.PsrInv.of_same {k : CoreId} {c d : CoreState} (h : c.PsrInv k) (hcpsr : d.cpsr = c.cpsr)
    (hfiq : d.spsrFiq = c.spsrFiq) (hsvc : d.spsrSvc = c.spsrSvc) (habt : d.spsrAbt = c.spsrAbt)
    (hirq : d.spsrIrq = c.spsrIrq) (hund : d.spsrUnd = c.spsrUnd) : d.PsrInv k := by
  unfold CoreState.PsrInv
  rwa [hcpsr, hfiq, hsvc, habt, hirq, hund]

/-- A write of the saved status register of a mode. -/
theorem CoreState.PsrInv.setSpsrOf {k : CoreId} {c : CoreState} (h : c.PsrInv k) (m : Mode) (v : Word) :
    (c.setSpsrOf k m v).PsrInv k := by
  have hv := psrClean_mask k v
  obtain ⟨hlegal, hcpsr, hfiq, hsvc, habt, hirq, hund⟩ := h
  cases m with
  | usr | sys => exact ⟨hlegal, hcpsr, hfiq, hsvc, habt, hirq, hund⟩
  | fiq => exact ⟨hlegal, hcpsr, hv, hsvc, habt, hirq, hund⟩
  | svc => exact ⟨hlegal, hcpsr, hfiq, hv, habt, hirq, hund⟩
  | abt => exact ⟨hlegal, hcpsr, hfiq, hsvc, hv, hirq, hund⟩
  | irq => exact ⟨hlegal, hcpsr, hfiq, hsvc, habt, hv, hund⟩
  | und => exact ⟨hlegal, hcpsr, hfiq, hsvc, habt, hirq, hv⟩

/-- Every elementary change keeps the modes legal and the reserved bits 0. -/
theorem CoreUpdate.keeps_psrInv {k : CoreId} {c d : CoreState} (h : CoreUpdate True k c d) (hc : c.PsrInv k) :
    d.PsrInv k := by
  obtain ⟨hlegal, -⟩ := id hc
  cases h with
  | setReg i v => exact hc.of_same (by simp) (by simp) (by simp) (by simp) (by simp) (by simp)
  | flags p h => exact hc.of_cpsr rfl (by rw [SameControl.psrLegal h, hlegal]) rfl rfl rfl rfl rfl
  | exchange thumb v => exact hc.of_cpsr rfl (by rw [psrLegal_psrSetT, hlegal]) rfl rfl rfl rfl rfl
  | msr fields v h => exact hc.of_cpsr rfl h rfl rfl rfl rfl rfl
  | setSpsr v => exact hc.setSpsrOf c.mode v
  | restore v h => exact hc.of_cpsr rfl h rfl rfl rfl rfl rfl
  | stage i m addr v h => exact hc.of_same (by simp) (by simp) (by simp) (by simp) (by simp) (by simp)
  | commit => exact hc
  | slot j sl => exact hc.of_same (by simp) (by simp) (by simp) (by simp) (by simp) (by simp)
  | bookkeeping d h =>
    rw [h]
    exact hc
  | enter vb m o lr f =>
    have hsaved := hc.setSpsrOf m c.cpsr
    have hl := c.enterException_legal k vb m o lr f
    rw [CoreState.enterException_cpsr, psrLegal_mask] at hl
    refine hsaved.of_cpsr (c.enterException_cpsr k vb m o lr f) hl ?_ ?_ ?_ ?_ ?_ <;> cases m <;> rfl
  | endCycle =>
    unfold CoreState.endCycle
    split <;> exact hc

/-- Settles O11: every elementary change of a core keeps the invariant of its status registers. -/
theorem stepKeepsStatusLegal : Obligations.StepKeepsStatusLegal := by
  unfold Obligations.StepKeepsStatusLegal
  intro s t hs h
  exact step_keeps_cores (I := fun k c => c.PsrInv k) (fun _ _ _ hcd hc => hcd.keeps_psrInv hc) hs h

/-! ## The targets of staged registers (41_pipeline.md R153) -/

/-- A slot whose recorded targets are banks of their registers: what `CoreState.StagingInv` says of each slot. -/
def Slot.Banked (sl : Slot) : Prop := ∀ i, ∃ m, sl.rphys.get i = phys i m

/-- A slot with the targets cleared. -/
theorem Slot.banked_of_clear {sl : Slot} (h : sl.rphys = Slot.clearPhys) : sl.Banked := by
  intro i
  exact ⟨.usr, by rw [h, Slot.clearPhys, RegMap.get_ofFn]⟩

/-- The staging invariant depends on the slots only. -/
theorem CoreState.StagingInv.of_slots {c d : CoreState} (h : c.StagingInv) (h0 : d.slot0 = c.slot0)
    (h1 : d.slot1 = c.slot1) (h2 : d.slot2 = c.slot2) : d.StagingInv
  | 0, i => by simpa only [CoreState.slot, h0] using h 0 i
  | 1, i => by simpa only [CoreState.slot, h1] using h 1 i
  | 2, i => by simpa only [CoreState.slot, h2] using h 2 i

/-- Replacing a slot. -/
theorem CoreState.StagingInv.setSlot {c : CoreState} (h : c.StagingInv) (j : Fin 3) {sl : Slot} (hsl : sl.Banked) :
    (c.setSlot j sl).StagingInv := by
  intro j'
  by_cases hj : j' = j
  · subst hj
    rw [CoreState.slot_setSlot_self]
    exact hsl
  · rw [CoreState.slot_setSlot_ne c sl hj]
    exact h j'

/-- Every elementary change keeps the recorded targets banks of their registers. -/
theorem CoreUpdate.keeps_stagingInv {k : CoreId} {c d : CoreState} (h : CoreUpdate True k c d) (hc : c.StagingInv) :
    d.StagingInv := by
  cases h with
  | setReg i v => exact hc.of_slots (by simp) (by simp) (by simp)
  | flags | exchange | msr | restore | commit => exact hc.of_slots rfl rfl rfl
  | setSpsr v => exact hc.of_slots (by simp) (by simp) (by simp)
  | stage i m addr v h =>
    refine hc.setSlot c.execIdx fun i' => ?_
    by_cases hi : i' = i
    · subst hi
      exact ⟨m, RegMap.get_set_self _ _ _⟩
    · obtain ⟨m', hm'⟩ := hc c.execIdx i'
      exact ⟨m', (RegMap.get_set_ne _ _ hi).trans hm'⟩
  | slot j sl hstaged hphys =>
    refine hc.setSlot j ?_
    obtain hsame | hclear := hphys
    · intro i
      rw [hsame]
      exact hc j i
    · exact Slot.banked_of_clear hclear
  | bookkeeping d h =>
    rw [h]
    exact hc.of_slots rfl rfl rfl
  | enter => exact hc.of_slots (by simp) (by simp) (by simp)
  | endCycle =>
    unfold CoreState.endCycle
    split
    · intro j
      have hempty : c.flush.slot j = Slot.empty := by
        match j with
        | 0 | 1 | 2 => rfl
      rw [hempty]
      exact Slot.banked_of_clear rfl
    · exact hc.of_slots rfl rfl rfl

/-! ## The program counter (41_pipeline.md R158) -/

/-- r15 is aligned to the instruction width. -/
def CoreState.Aligned (c : CoreState) : Prop := c.alignPc c.regs.r15 = c.regs.r15

/-- Clearing the low `n` bits. -/
theorem and_clearLow (v : Word) (n : Nat) : v &&& BitVec.allOnes 32 <<< n = v >>> n <<< n := by
  apply BitVec.eq_of_getLsbD_eq
  intro j hj
  by_cases h : j < n
  · simp [h]
  · have hsum : n + (j - n) = j := by omega
    simp [-BitVec.reduceAllOnes, h, hj, hsum]

theorem toNat_alignWord (v : Word) : (alignWord v).toNat = v.toNat / 4 * 4 := by
  have hshift : alignWord v = v >>> 2 <<< 2 := and_clearLow v 2
  rw [hshift, BitVec.toNat_shiftLeft, BitVec.toNat_ushiftRight, Nat.shiftRight_eq_div_pow, Nat.shiftLeft_eq]
  omega

theorem toNat_alignHalf (v : Word) : (alignHalf v).toNat = v.toNat / 2 * 2 := by
  have hshift : alignHalf v = v >>> 1 <<< 1 := and_clearLow v 1
  rw [hshift, BitVec.toNat_shiftLeft, BitVec.toNat_ushiftRight, Nat.shiftRight_eq_div_pow, Nat.shiftLeft_eq]
  omega

/-- An aligned word address, advanced by a word. -/
theorem alignWord_add {v : Word} (h : alignWord v = v) : alignWord (v + 4#32) = v + 4#32 := by
  rw [← BitVec.toNat_inj, toNat_alignWord] at *
  rw [BitVec.toNat_add]
  simp only [BitVec.toNat_ofNat]
  omega

/-- An aligned halfword address, advanced by a halfword. -/
theorem alignHalf_add {v : Word} (h : alignHalf v = v) : alignHalf (v + 2#32) = v + 2#32 := by
  rw [← BitVec.toNat_inj, toNat_alignHalf] at *
  rw [BitVec.toNat_add]
  simp only [BitVec.toNat_ofNat]
  omega

theorem alignHalf_alignHalf (v : Word) : alignHalf (alignHalf v) = alignHalf v := by
  unfold alignHalf
  rw [BitVec.and_assoc, BitVec.and_self]

theorem alignWord_alignWord (v : Word) : alignWord (alignWord v) = alignWord v := by
  unfold alignWord
  rw [BitVec.and_assoc, BitVec.and_self]

/-- A write of r15 leaves it aligned. -/
theorem CoreState.writePc_aligned (c : CoreState) (v : Word) : (c.writePc v).Aligned := by
  show c.alignPc (c.alignPc v) = c.alignPc v
  unfold CoreState.alignPc
  split
  · exact alignHalf_alignHalf v
  · exact alignWord_alignWord v

/-- A change that keeps T and r15. -/
theorem CoreState.Aligned.of_same {c d : CoreState} (h : c.Aligned) (ht : psrT d.cpsr = psrT c.cpsr)
    (hpc : d.regs.r15 = c.regs.r15) : d.Aligned := by
  unfold CoreState.Aligned CoreState.alignPc at *
  rwa [ht, hpc]

/-- An aligned address, advanced by the instruction width. -/
theorem CoreState.updatePc_aligned {c : CoreState} (h : c.Aligned) : c.updatePc.Aligned := by
  have hpc : c.updatePc.regs.r15 = c.regs.r15 + if psrT c.cpsr then 2#32 else 4#32 := rfl
  unfold CoreState.Aligned CoreState.alignPc at *
  rw [CoreState.updatePc_cpsr, hpc]
  cases ht : psrT c.cpsr with
  | true =>
    rw [ht] at h
    exact alignHalf_add h
  | false =>
    rw [ht] at h
    exact alignWord_add h

/-- The commit of staged registers whose targets are banks never writes r15. -/
theorem foldl_commitOne_r15 {sl : Slot} (h : sl.Banked) (l : List Reg) (f : RegFile) :
    (l.foldl (commitOne sl) f).r15 = f.r15 := by
  induction l generalizing f with
  | nil => rfl
  | cons i rest ih =>
    rw [List.foldl_cons, ih, commitOne]
    split
    · next hi =>
      obtain ⟨m, hm⟩ := h i
      rw [hm]
      exact RegFile.set_r15_ne f _ fun e => hi.1 (phys_eq_r15.mp e)
    · rfl

/-- Every elementary change keeps r15 aligned. -/
theorem CoreUpdate.keeps_aligned {k : CoreId} {c d : CoreState} (h : CoreUpdate True k c d) (hs : c.StagingInv)
    (hc : c.Aligned) : d.Aligned := by
  cases h with
  | setReg i v =>
    by_cases hi : i = .r15
    · subst hi
      exact c.writePc_aligned v
    · rw [CoreState.setReg_regs_of_ne c v hi]
      exact hc.of_same rfl (RegFile.set_r15_ne _ _ fun e => hi (phys_eq_r15.mp e))
  | flags p h => exact hc.of_same (by rw [CoreState.setCpsr_cpsr, psrT_mask, SameControl.psrT h]) rfl
  | exchange | restore => exact CoreState.writePc_aligned _ _
  | msr fields v h => exact hc.of_same (by rw [CoreState.setCpsr_cpsr, psrT_mask, msrValue, psrT_psrSetT]) rfl
  | setSpsr v => exact hc.of_same (by simp) (by simp)
  | stage i m addr v h => exact hc.of_same (by simp) (by simp)
  | commit => exact hc.of_same rfl (foldl_commitOne_r15 (hs c.execIdx) _ _)
  | slot j sl => exact hc.of_same (by simp) (by simp)
  | bookkeeping d h =>
    rw [h]
    exact hc
  | enter => exact CoreState.writePc_aligned _ _
  | endCycle =>
    unfold CoreState.endCycle
    split
    · exact hc
    · exact CoreState.updatePc_aligned hc

/-- Settles O12: every elementary change of a core keeps its program counter aligned and the targets of its slots
banks. -/
theorem stepKeepsPcAligned : Obligations.StepKeepsPcAligned := by
  unfold Obligations.StepKeepsPcAligned
  intro s t hs h
  refine step_keeps_cores (I := fun _ c => c.PcInv) (fun k c d hcd hc => ?_) hs h
  obtain ⟨haligned, hstaging⟩ := hc
  exact ⟨hcd.keeps_aligned hstaging haligned, hcd.keeps_stagingInv hstaging⟩

end Sys2Proof.Machine
end

section
/-! SUPPORT. User mode: what an instruction that is no trapping SWI can reach. -/

namespace Sys2Proof.Machine

/-- The mode in force, when the mode field is legal. -/
theorem CoreState.mode_of_psrMode? {c : CoreState} {m : Mode} (h : psrMode? c.cpsr = some m) : c.mode = m := by
  rw [CoreState.mode, h]
  rfl

/-- The executing slot depends on the pointer and the slots only. -/
theorem CoreState.execSlot_congr {c d : CoreState} (hp : d.ptr = c.ptr) (h0 : d.slot0 = c.slot0)
    (h1 : d.slot1 = c.slot1) (h2 : d.slot2 = c.slot2) : d.execSlot = c.execSlot := by
  simp only [CoreState.execSlot, CoreState.execIdx, CoreState.slot, hp, h0, h1, h2]

/-- The mask of a core keeps the control byte. -/
theorem sameControl_mask (p : Word) (k : CoreId) : SameControl (p &&& psrMask k) p := by
  intro j hj
  have hmask : (psrMask k).getLsbD j = true := by
    have hcases : ∀ j < 8, (psrMask .fast).getLsbD j = true ∧ (psrMask .slow).getLsbD j = true := by decide
    obtain ⟨hfast, hslow⟩ := hcases j hj
    cases k with
    | fast => exact hfast
    | slow => exact hslow
  rw [BitVec.getLsbD_and, hmask, Bool.and_true]

/-- Setting T keeps every other bit. -/
theorem getLsbD_psrSetT_ne (p : Word) (b : Bool) {j : Nat} (h : j ≠ 5) : (psrSetT p b).getLsbD j = p.getLsbD j := by
  rw [psrSetT, getLsbD_putBit, if_neg (fun e => h e.1)]

/-- In user mode MSR keeps the control byte (42_arm_dataproc.md R192). -/
theorem sameControl_msrValue {k : CoreId} {p : Word} (h : psrMode? p = some .usr) (fields : BitVec 4) (v : Word) :
    SameControl (msrValue k p fields v) p := by
  have hmask : ∀ j < 8, (msrMask p fields).getLsbD j = false := by
    intro j hj
    have hhigh : ∀ j < 8, (0xFF000000#32).getLsbD j = false := by decide
    rw [msrMask, if_pos h, BitVec.getLsbD_and, hhigh j hj, Bool.and_false]
  intro j hj
  rw [msrValue]
  by_cases ht : j = 5
  · subst ht
    exact psrT_psrSetT _ _
  · rw [getLsbD_psrSetT_ne _ _ ht, sameControl_mask _ k j hj]
    exact (SameControl.refl p).putMasked hmask v j hj

/-- Only registers that user mode names are staged in the executing slot. -/
def CoreState.StagesUsr (c : CoreState) : Prop :=
  ∀ i, c.execSlot.staged i = true → ∃ r, c.execSlot.rphys.get i = phys r .usr

/-- `c` is as far from `b`, a core in user mode, as an instruction can take it: the mode, the interrupt masks and the
saved status registers are the same, and only registers of the USR bank differ (60_exceptions.md R359). -/
structure CoreState.Confined (b c : CoreState) : Prop where
  control : ∀ j < 8, j ≠ 5 → c.cpsr.getLsbD j = b.cpsr.getLsbD j
  spsrFiq : c.spsrFiq = b.spsrFiq
  spsrSvc : c.spsrSvc = b.spsrSvc
  spsrAbt : c.spsrAbt = b.spsrAbt
  spsrIrq : c.spsrIrq = b.spsrIrq
  spsrUnd : c.spsrUnd = b.spsrUnd
  regs : ∀ p, (∀ r, p ≠ phys r .usr) → c.regs.get p = b.regs.get p

theorem CoreState.Confined.refl (c : CoreState) : c.Confined c :=
  ⟨fun _ _ _ => rfl, rfl, rfl, rfl, rfl, rfl, fun _ _ => rfl⟩

theorem CoreState.Confined.trans {b c d : CoreState} (hbc : b.Confined c) (hcd : c.Confined d) : b.Confined d where
  control j hj ht := (hcd.control j hj ht).trans (hbc.control j hj ht)
  spsrFiq := hcd.spsrFiq.trans hbc.spsrFiq
  spsrSvc := hcd.spsrSvc.trans hbc.spsrSvc
  spsrAbt := hcd.spsrAbt.trans hbc.spsrAbt
  spsrIrq := hcd.spsrIrq.trans hbc.spsrIrq
  spsrUnd := hcd.spsrUnd.trans hbc.spsrUnd
  regs p hp := (hcd.regs p hp).trans (hbc.regs p hp)

/-- A confined change keeps user mode. -/
theorem CoreState.Confined.mode {b c : CoreState} (h : b.Confined c) (hb : psrMode? b.cpsr = some .usr) :
    psrMode? c.cpsr = some .usr := by
  have hm : psrM c.cpsr = psrM b.cpsr := psrM_congr fun j hj => h.control j (by omega) (by omega)
  rwa [psrMode?, hm]

/-- A write of cpsr that keeps the control byte but for T. -/
theorem CoreState.confined_setCpsr (c : CoreState) (k : CoreId) {p : Word}
    (h : ∀ j < 8, j ≠ 5 → p.getLsbD j = c.cpsr.getLsbD j) : c.Confined (c.setCpsr k p) :=
  ⟨fun j hj ht => (sameControl_mask p k j hj).trans (h j hj ht), rfl, rfl, rfl, rfl, rfl, fun _ _ => rfl⟩

/-- A write of r15, which every mode names. -/
theorem CoreState.confined_writePc (c : CoreState) (v : Word) : c.Confined (c.writePc v) :=
  ⟨fun _ _ _ => rfl, rfl, rfl, rfl, rfl, rfl, fun p hp => (CoreState.writePc_get c v p).trans (if_neg (hp .r15))⟩

/-- A register write of user mode. -/
theorem CoreState.confined_setReg {c : CoreState} (hm : c.mode = .usr) (i : Reg) (v : Word) :
    c.Confined (c.setReg i v) := by
  by_cases hi : i = .r15
  · subst hi
    exact c.confined_writePc v
  · rw [CoreState.setReg_regs_of_ne c v hi, hm]
    exact ⟨fun _ _ _ => rfl, rfl, rfl, rfl, rfl, rfl, fun p hp => RegFile.get_set_ne _ v (hp i)⟩

/-- A change of slots only. -/
theorem CoreState.confined_setSlot (c : CoreState) (j : Fin 3) (sl : Slot) : c.Confined (c.setSlot j sl) := by
  refine ⟨fun _ _ _ => ?_, ?_, ?_, ?_, ?_, ?_, fun _ _ => ?_⟩ <;> simp

/-- The commit of registers that user mode names. -/
theorem foldl_commitOne_usr {sl : Slot} (h : ∀ i, sl.staged i = true → ∃ r, sl.rphys.get i = phys r .usr) {p : PhysReg}
    (hp : ∀ r, p ≠ phys r .usr) (l : List Reg) (f : RegFile) : (l.foldl (commitOne sl) f).get p = f.get p := by
  induction l generalizing f with
  | nil => rfl
  | cons i rest ih =>
    rw [List.foldl_cons, ih, commitOne]
    split
    · next hi =>
      obtain ⟨r, hr⟩ := h i hi.2
      rw [hr]
      exact RegFile.get_set_ne f _ (hp r)
    · rfl

/-- In user mode an elementary change other than the entry of an exception and the end of a cycle is confined. -/
theorem CoreUpdate.confined {k : CoreId} {c d : CoreState} (h : CoreUpdate False k c d)
    (hm : psrMode? c.cpsr = some .usr) (hs : c.StagesUsr) : c.Confined d := by
  have hmode := CoreState.mode_of_psrMode? hm
  cases h with
  | setReg i v => exact CoreState.confined_setReg hmode i v
  | flags p h => exact c.confined_setCpsr k fun j hj _ => h j hj
  | exchange thumb v =>
    exact .trans (c.confined_setCpsr k fun j _ ht => getLsbD_psrSetT_ne _ _ ht) (CoreState.confined_writePc _ v)
  | msr fields v h => exact c.confined_setCpsr k fun j hj _ => sameControl_msrValue hm fields v j hj
  | setSpsr v =>
    rw [CoreState.setSpsr, hmode]
    exact .refl c
  | restore v h =>
    rw [CoreState.getSpsr, hmode]
    exact .trans (c.confined_setCpsr k fun _ _ _ => rfl) (CoreState.confined_writePc _ v)
  | stage i m addr v h => exact c.confined_setSlot _ _
  | commit => exact ⟨fun _ _ _ => rfl, rfl, rfl, rfl, rfl, rfl, fun p hp => foldl_commitOne_usr hs hp _ _⟩
  | slot j sl => exact c.confined_setSlot j sl
  | bookkeeping d h =>
    rw [h]
    exact ⟨fun _ _ _ => rfl, rfl, rfl, rfl, rfl, rfl, fun _ _ => rfl⟩
  | enter _ _ _ _ _ h => exact h.elim
  | endCycle h => exact h.elim

/-- Only the executing slot matters to what is staged. -/
theorem CoreState.StagesUsr.of_same {c d : CoreState} (h : c.StagesUsr) (hp : d.ptr = c.ptr) (h0 : d.slot0 = c.slot0)
    (h1 : d.slot1 = c.slot1) (h2 : d.slot2 = c.slot2) : d.StagesUsr := by
  unfold CoreState.StagesUsr
  rwa [CoreState.execSlot_congr hp h0 h1 h2]

/-- The executing slot when a slot is replaced. -/
theorem CoreState.execSlot_setSlot (c : CoreState) (j : Fin 3) (sl : Slot) :
    (c.setSlot j sl).execSlot = if c.execIdx = j then sl else c.execSlot := by
  have hidx : (c.setSlot j sl).execIdx = c.execIdx := by simp [CoreState.execIdx]
  rw [CoreState.execSlot, hidx]
  split
  · next hj =>
    rw [hj, CoreState.slot_setSlot_self]
  · next hj => exact c.slot_setSlot_ne sl hj

/-- Replacing a slot by one that stages registers of user mode. -/
theorem CoreState.StagesUsr.setSlot {c : CoreState} (h : c.StagesUsr) (j : Fin 3) {sl : Slot}
    (hsl : c.execIdx = j → ∀ i, sl.staged i = true → ∃ r, sl.rphys.get i = phys r .usr) :
    (c.setSlot j sl).StagesUsr := by
  unfold CoreState.StagesUsr
  rw [CoreState.execSlot_setSlot]
  split
  · next hj => exact hsl hj
  · exact h

/-- In user mode an elementary change stages registers of user mode only. -/
theorem CoreUpdate.keeps_stagesUsr {k : CoreId} {c d : CoreState} (h : CoreUpdate False k c d)
    (hm : psrMode? c.cpsr = some .usr) (hs : c.StagesUsr) : d.StagesUsr := by
  have hmode := CoreState.mode_of_psrMode? hm
  cases h with
  | setReg i v => exact hs.of_same (by simp) (by simp) (by simp) (by simp)
  | flags | exchange | msr | restore | commit => exact hs.of_same rfl rfl rfl rfl
  | setSpsr v => exact hs.of_same (by simp) (by simp) (by simp) (by simp)
  | stage i m addr v h =>
    have hm' : m = .usr := h.elim (fun e => e.trans hmode) id
    subst hm'
    refine hs.setSlot c.execIdx fun _ i' hi' => ?_
    have hor := (Slot.staged_or c.execSlot i i').symm.trans hi'
    by_cases hi : i' = i
    · subst hi
      exact ⟨i', RegMap.get_set_self _ _ _⟩
    · rw [decide_eq_false hi, Bool.or_false] at hor
      obtain ⟨r, hr⟩ := hs i' hor
      exact ⟨r, (RegMap.get_set_ne _ _ hi).trans hr⟩
  | slot j sl hstaged hphys =>
    refine hs.setSlot j fun hj i hi => ?_
    subst hj
    obtain hsame | hclear := hphys
    · rw [hsame]
      exact hs i (hstaged i hi)
    · exact ⟨i, by rw [hclear, Slot.clearPhys, RegMap.get_ofFn]⟩
  | bookkeeping d h =>
    rw [h]
    exact hs.of_same rfl rfl rfl rfl
  | enter _ _ _ _ _ h => exact h.elim
  | endCycle h => exact h.elim

/-- Settles O16: in user mode an instruction that is no trapping SWI is a chain of confined changes. -/
theorem userModeKeepsPrivilege : Obligations.UserModeKeepsPrivilege := by
  unfold Obligations.UserModeKeepsPrivilege
  intro i s t hm hstaged hswi h
  have hchanges : Changes False s t := by
    refine exec_changes h fun htrap hne => ?_
    obtain hhle | hnone := hswi
    · rw [hhle] at htrap
      cases htrap
    · exact hne hnone
  have hstart : s.cur.StagesUsr := by
    intro i hi
    rw [Slot.staged_of_empty hstaged] at hi
    cases hi
  have hend : s.cur.Confined t.cur ∧ t.cur.StagesUsr := by
    refine Changes.keep (I := fun c => s.cur.Confined c ∧ c.StagesUsr) (fun c d hcd hc => ?_) hchanges
      ⟨.refl _, hstart⟩
    obtain ⟨hconf, hstages⟩ := hc
    have hmc := hconf.mode hm
    exact ⟨hconf.trans (hcd.confined hmc hstages), hcd.keeps_stagesUsr hmc hstages⟩
  obtain ⟨⟨hcontrol, hfiq, hsvc, habt, hirq, hund, hregs⟩, -⟩ := hend
  refine ⟨?_, hfiq, hsvc, habt, hirq, hund, fun p hp => hregs p fun r hr => hp ⟨r, hr⟩⟩
  apply BitVec.eq_of_getLsbD_eq
  intro j hj
  rw [BitVec.getLsbD_and, BitVec.getLsbD_and]
  by_cases hlow : j < 8 ∧ j ≠ 5
  · rw [hcontrol j hlow.1 hlow.2]
  · have hzero : ∀ j < 32, ¬(j < 8 ∧ j ≠ 5) → (0xDF#32).getLsbD j = false := by decide
    rw [hzero j hj hlow, Bool.and_false, Bool.and_false]

end Sys2Proof.Machine
end

section
/-! SUPPORT. MSR: the status words it writes, bit by bit, and the frame of a write of the saved status register. -/

namespace Sys2Proof.Machine

/-! ## The values -/

/-- The byte mask of a field mask, bit by bit: bit `n` is in the byte that field `n / 8` selects. -/
theorem getLsbD_fieldMask (fields : BitVec 4) {n : Nat} (hn : n < 32) :
    (fieldMask fields).getLsbD n = fields.getLsbD (n / 8) := by
  have hall : ∀ f : BitVec 4, ∀ n < 32, (fieldMask f).getLsbD n = f.getLsbD (n / 8) := by decide
  exact hall fields n hn

/-- The bytes of cpsr that MSR may write, bit by bit: in user mode the flags byte only. -/
theorem getLsbD_msrMask (cpsr : Word) (fields : BitVec 4) {n : Nat} (hn : n < 32) :
    (msrMask cpsr fields).getLsbD n = true ↔
      fields.getLsbD (n / 8) = true ∧ (psrMode? cpsr = some .usr → 24 ≤ n) := by
  have hflags : ∀ n < 32, (0xFF000000#32).getLsbD n = decide (24 ≤ n) := by decide
  unfold msrMask
  split
  · next hm => simp [BitVec.getLsbD_and, getLsbD_fieldMask fields hn, hflags n hn, hm]
  · next hm => simp [getLsbD_fieldMask fields hn, hm]

/-- The cpsr value of MSR, bit by bit. -/
theorem getLsbD_msrValue (k : CoreId) (cpsr : Word) (fields : BitVec 4) (v : Word) {n : Nat} (hn : n < 32) :
    (msrValue k cpsr fields v).getLsbD n =
      if n = 5 then psrT cpsr
      else (psrMask k).getLsbD n
        && (if fields.getLsbD (n / 8) = true ∧ (psrMode? cpsr = some .usr → 24 ≤ n) then v.getLsbD n
            else cpsr.getLsbD n) := by
  unfold msrValue
  split
  · next h5 =>
    subst h5
    exact psrT_psrSetT _ _
  · next h5 =>
    rw [getLsbD_psrSetT_ne _ _ h5, BitVec.getLsbD_and, getLsbD_putMasked, Bool.and_comm]
    simp only [getLsbD_msrMask cpsr fields hn]

/-- The cpsr value of MSR has no reserved bit. -/
theorem msrValue_mask (k : CoreId) (cpsr : Word) (fields : BitVec 4) (v : Word) :
    msrValue k cpsr fields v &&& psrMask k = msrValue k cpsr fields v := by
  apply BitVec.eq_of_getLsbD_eq
  intro n hn
  have hT : (psrMask k).getLsbD 5 = true := by cases k <;> decide
  rw [BitVec.getLsbD_and, getLsbD_msrValue k cpsr fields v hn]
  split
  · next h5 => rw [h5, hT, Bool.and_true]
  · rw [Bool.and_comm, ← Bool.and_assoc, Bool.and_self]

/-! ## The instruction -/

/-- Each MSR that runs performs its rule on the operand of the statements. -/
theorem exec_msr {i : Instr} {s : State} {spsr : Bool} {fields : BitVec 4} {v : Word}
    (hm : i.msr? s.cur = some (spsr, fields, v)) (h : Runs i s) :
    ∃ operand : CoreState → Word, operand s.cur = v
      ∧ exec i s = .next (s.perform .load (onCore (msrRule spsr fields operand))) := by
  unfold Instr.msr? at hm
  split at hm
  case h_1 c _ _ rm =>
    cases hm
    exact ⟨fun x => x.reg rm, rfl, runCond_of_runs h rfl⟩
  case h_2 c _ _ rot imm8 =>
    cases hm
    exact ⟨fun _ => rotatedImm rot imm8, (rotated_eq_rotatedImm rot imm8).symm, runCond_of_runs h rfl⟩
  case h_3 => cases hm

/-- MSR to cpsr with a legal mode: the new word, and a re-fetch if the mode changes. -/
theorem msrCpsr_done {c : CoreState} {k : CoreId} {fields : BitVec 4} {v : Word}
    (h : psrLegal (msrValue k c.cpsr fields v) = true) :
    msrCpsr fields v k c =
      .done (if psrM (msrValue k c.cpsr fields v) = psrM c.cpsr then
          c.updated c.regs (msrValue k c.cpsr fields v) c.needsFlush
        else
          c.updated { c.regs with r15 := alignTarget (psrT c.cpsr) (c.instrAddr + 4#32) }
            (msrValue k c.cpsr fields v) true) := by
  have hset : c.setCpsr k (msrValue k c.cpsr fields v) =
      c.updated c.regs (msrValue k c.cpsr fields v) c.needsFlush := by
    rw [CoreState.setCpsr, msrValue_mask]
    rfl
  have hT : psrT (msrValue k c.cpsr fields v) = psrT c.cpsr := psrT_psrSetT _ _
  simp only [msrCpsr, h, hset, if_true]
  split
  · rfl
  · simp only [CoreState.writePc, CoreState.updated, CoreState.alignPc, hT]
    rfl

/-- Settles O41: MSR to cpsr writes one status word and, with a new mode, r15. -/
theorem msrWritesCpsr : Obligations.MsrWritesCpsr := by
  unfold Obligations.MsrWritesCpsr
  intro i s fields v hm h
  obtain ⟨operand, rfl, hexec⟩ := exec_msr hm h
  obtain ⟨-, -, -, hstaged⟩ := h
  refine ⟨fun hlegal => ?_, fun hillegal => ?_⟩
  · have hrule := onCore_done (f := msrRule false fields operand) (msrCpsr_done hlegal)
    split at hrule
    · next hmode =>
      obtain ⟨hframe, hacc, hflush, hregs, hcpsr⟩ := State.perform_updated (w := .load) hrule hstaged
      refine ⟨_, hexec, hframe, hacc, fun n hn => ?_, ?_⟩
      · rw [hcpsr, getLsbD_msrValue _ _ _ _ hn]
      · rw [hcpsr, if_pos hmode]
        exact ⟨fun p _ => by rw [hregs], hflush⟩
    · next hmode =>
      obtain ⟨hframe, hacc, hflush, hregs, hcpsr⟩ := State.perform_updated (w := .load) hrule hstaged
      refine ⟨_, hexec, hframe, hacc, fun n hn => ?_, ?_⟩
      · rw [hcpsr, getLsbD_msrValue _ _ _ _ hn]
      · rw [hcpsr, if_neg hmode]
        refine ⟨fun p hp => ?_, by rw [hregs], hflush⟩
        rw [hregs]
        exact RegFile.get_set_ne s.cur.regs _ hp
  · have hrule : onCore (msrRule false fields operand) s.turn s =
        .stop ⟨.illegalMode, msrValue s.turn s.cur.cpsr fields (operand s.cur), s.cur.instrAddr⟩ (s.setCur s.cur) := by
      refine onCore_stop ?_
      simp only [msrRule, msrCpsr, hillegal]
      rfl
    refine ⟨_, hexec, ?_⟩
    rw [State.perform_of_stop hrule, State.setCur_self]
    rfl

/-! ## The saved status register -/

/-- A write of the current saved status register changes no field but the saved status registers. -/
theorem CoreState.setSpsr_eq (c : CoreState) (k : CoreId) (v : Word) :
    c.setSpsr k v = { c with
      spsrFiq := (c.setSpsr k v).spsrFiq, spsrSvc := (c.setSpsr k v).spsrSvc, spsrAbt := (c.setSpsr k v).spsrAbt
      spsrIrq := (c.setSpsr k v).spsrIrq, spsrUnd := (c.setSpsr k v).spsrUnd } := by
  unfold CoreState.setSpsr
  cases c.mode <;> rfl

/-- A write of the current saved status register leaves every slot alone. -/
theorem CoreState.slot_setSpsr (c : CoreState) (k : CoreId) (v : Word) (j : Fin 3) :
    (c.setSpsr k v).slot j = c.slot j := by
  rw [CoreState.setSpsr_eq]
  rfl

/-- A charge leaves every slot alone. -/
theorem CoreState.slot_charge (c : CoreState) (n : Nat) (j : Fin 3) : (c.charge n).slot j = c.slot j := rfl

/-- A charge leaves the executing slot alone. -/
theorem CoreState.execSlot_charge (c : CoreState) (n : Nat) : (c.charge n).execSlot = c.execSlot := rfl

/-- The frame of a rule that writes the current saved status register and nothing else. -/
theorem State.perform_setSpsr {s : State} {w : PcCommit} {r : Rule} {v : Word}
    (hr : r s.turn s = .done (s.setCur (s.cur.setSpsr s.turn v))) (he : s.cur.execSlot.rmask = 0#16) :
    StatusFrame s (s.perform w r) ∧ (s.perform w r).cur.regs = s.cur.regs ∧ (s.perform w r).cur.cpsr = s.cur.cpsr
      ∧ (s.perform w r).cur.needsFlush = s.cur.needsFlush
      ∧ ∀ m, m ≠ .usr → m ≠ .sys → (s.perform w r).cur.spsrOf m = (s.cur.setSpsr s.turn v).spsrOf m := by
  have hempty : (s.setCur (s.cur.setSpsr s.turn v)).cur.execSlot.rmask = 0#16 := by
    rw [State.setCur_cur, CoreState.execSlot_congr (c := s.cur) (by simp) (by simp) (by simp) (by simp)]
    exact he
  obtain ⟨n, hn, ht⟩ := State.perform_of_done_pos (w := w) hr hempty
  obtain ⟨hfields, hslots⟩ := (s.cur.setSpsr s.turn v).scratchOnly_finish
  rw [State.onCur, State.setCur_setCur, State.setCur_cur] at ht
  rw [ht]
  unfold StatusFrame
  rw [State.setCur_cur]
  refine ⟨⟨?_, fun j => ?_, ?_, ?_⟩, ?_, ?_, ?_, fun m husr hsys => ?_⟩
  · rw [hfields, CoreState.setSpsr_eq]
    rfl
  · rw [CoreState.slot_charge, ← CoreState.slot_setSpsr s.cur s.turn v j]
    exact hslots j
  · rw [CoreState.execSlot_charge, CoreState.execSlot_clearStaged_rmask]
  · simp [hn]
  · simp
  · simp
  · simp
  · cases m with
    | usr => exact absurd rfl husr
    | sys => exact absurd rfl hsys
    | fiq | svc | abt | irq | und => simp [CoreState.spsrOf]

/-- The saved status registers after a write of the current one (10_state.md R26). -/
theorem CoreState.spsrOf_setSpsr (c : CoreState) (k : CoreId) (v : Word) {m : Mode} (husr : m ≠ .usr)
    (hsys : m ≠ .sys) : (c.setSpsr k v).spsrOf m = if m = c.mode then v &&& psrMask k else c.spsrOf m := by
  unfold CoreState.setSpsr
  cases m <;> cases c.mode <;> first | rfl | exact absurd rfl husr | exact absurd rfl hsys

/-- Settles O42: MSR to the spsr writes the saved status register of the current mode, if it has one. -/
theorem msrWritesSpsr : Obligations.MsrWritesSpsr := by
  unfold Obligations.MsrWritesSpsr
  intro i s fields v hm h
  obtain ⟨operand, rfl, hexec⟩ := exec_msr hm h
  obtain ⟨-, -, -, hstaged⟩ := h
  have hrule := onCore_done (f := msrRule true fields operand) (k := s.turn) (s := s) rfl
  obtain ⟨hframe, hregs, hcpsr, hflush, hspsr⟩ := State.perform_setSpsr (w := .load) hrule hstaged
  refine ⟨_, hexec, hframe, fun p _ => by rw [hregs], hcpsr, hflush, fun m husr hsys => ⟨fun hne => ?_, ?_⟩⟩
  · rw [hspsr m husr hsys, CoreState.spsrOf_setSpsr _ _ _ husr hsys, if_neg hne]
  · intro heq n hn
    rw [hspsr m husr hsys, CoreState.spsrOf_setSpsr _ _ _ husr hsys, if_pos heq, BitVec.getLsbD_and, getLsbD_putMasked,
      getLsbD_fieldMask fields hn, Bool.and_comm, CoreState.getSpsr, ← heq]

end Sys2Proof.Machine
end

section
/-! SUPPORT. The saturating and accumulating instructions: exact values and the sticky flag. -/

namespace Sys2Proof.Machine

/-- Saturation is the nearest integer of a word. -/
theorem saturate_eq_nearest (t : Int) : saturate t = nearest t := by
  unfold saturate nearest
  omega

/-- An integer overflows when no word holds it. -/
theorem overflows_iff (t : Int) : overflows t = true ↔ ¬InWord t := by
  simp only [overflows, InWord, Bool.or_eq_true, decide_eq_true_eq]
  omega

/-- One of two integers overflows. -/
theorem overflows_or_iff (t u : Int) : (overflows t || overflows u) = true ↔ ¬InWord t ∨ ¬InWord u := by
  rw [Bool.or_eq_true, overflows_iff, overflows_iff]

/-- Setting Q, as an or. -/
theorem psrSetQ_true (w : Word) : psrSetQ w true = w ||| 0x08000000#32 := by
  apply BitVec.eq_of_getLsbD_eq
  intro j hj
  have hbit : ∀ j < 32, (0x08000000#32).getLsbD j = decide (j = 27) := by decide
  rw [psrSetQ, getLsbD_putBit, BitVec.getLsbD_or, hbit j hj]
  by_cases h : j = 27 <;> simp [h, hj]

/-- The end of a sticky instruction: the destination, and Q set or the status word as it was. -/
theorem writeSticky_eq (c : CoreState) (k : CoreId) {rd : Reg} (v : Word) (q : Bool) (hrd : rd ≠ .r15) :
    writeSticky rd v q k c =
      .done (c.updated (c.regs.set (phys rd c.mode) v)
        (if q then (c.cpsr ||| 0x08000000#32) &&& psrMask k else c.cpsr) c.needsFlush) := by
  unfold writeSticky
  rw [CoreState.setReg_regs_of_ne _ v hrd]
  cases q with
  | false => rfl
  | true =>
    rw [← psrSetQ_true]
    rfl

/-- No sticky instruction that a core recognizes writes r15. -/
theorem sticky_dest_ne_r15 {i : Instr} {c : CoreState} {rd : Reg} {v : Word} {q : Prop}
    (hm : i.sticky? c = some (rd, v, q)) (h : i.unpredictable = false) : rd ≠ .r15 := by
  unfold Instr.sticky? at hm
  dsimp only at hm
  split at hm
  case h_7 => cases hm
  all_goals
    cases hm
    simp only [Instr.unpredictable, Bool.or_eq_false_iff, beq_eq_false_iff_ne] at h
    tauto

/-- Each sticky instruction that runs performs a rule that ends as `writeSticky` of the exact value does. -/
theorem exec_sticky {i : Instr} {s : State} {rd : Reg} {v : Word} {q : Prop}
    (hm : i.sticky? s.cur = some (rd, v, q)) (h : Runs i s) :
    ∃ (f : CoreRule) (b : Bool), exec i s = .next (s.perform .load (onCore f))
      ∧ f s.turn s.cur = writeSticky rd v b s.turn s.cur ∧ (b = true ↔ q) := by
  unfold Instr.sticky? at hm
  dsimp only at hm
  split at hm
  case h_1 _ rn _ rm =>
    cases hm
    refine ⟨qaddRule rn rd rm, _, runCond_of_runs h rfl, ?_, overflows_iff _⟩
    simp only [qaddRule, saturate_eq_nearest]
  case h_2 _ rn _ rm =>
    cases hm
    refine ⟨qsubRule rn rd rm, _, runCond_of_runs h rfl, ?_, overflows_iff _⟩
    simp only [qsubRule, saturate_eq_nearest]
  case h_3 _ rn _ rm =>
    cases hm
    refine ⟨qdaddRule rn rd rm, _, runCond_of_runs h rfl, ?_, overflows_or_iff _ _⟩
    simp only [qdaddRule, doubled, saturate_eq_nearest]
  case h_4 _ rn _ rm =>
    cases hm
    refine ⟨qdsubRule rn rd rm, _, runCond_of_runs h rfl, ?_, overflows_or_iff _ _⟩
    simp only [qdsubRule, doubled, saturate_eq_nearest]
  case h_5 _ x y _ rn rs rm =>
    cases hm
    refine ⟨smlaRule x y rd rn rs rm, _, runCond_of_runs h rfl, ?_, overflows_iff _⟩
    simp only [smlaRule, signedHalf_eq_halfword]
  case h_6 _ y _ rn rs rm =>
    cases hm
    refine ⟨smlawRule y rd rn rs rm, _, runCond_of_runs h rfl, ?_, overflows_iff _⟩
    simp only [smlawRule, wideProduct, signedHalf_eq_halfword]
    rfl
  case h_7 => cases hm

/-- Settles O45: the rule of the instruction ends in `writeSticky`, which updates one register and Q. -/
theorem stickyWrites : Obligations.StickyWrites := by
  unfold Obligations.StickyWrites
  intro i s rd v q hm h
  have hrd : rd ≠ .r15 := sticky_dest_ne_r15 hm (unpredictable_of_runs h)
  obtain ⟨f, b, hexec, hrule, hq⟩ := exec_sticky hm h
  obtain ⟨-, -, -, hstaged⟩ := h
  rw [writeSticky_eq _ _ _ _ hrd] at hrule
  obtain ⟨hframe, hacc, hflush, hregs, hcpsr⟩ := State.perform_updated (w := .load) (onCore_done hrule) hstaged
  refine ⟨_, hexec, hframe, hacc, hflush, ?_, fun p hp => ?_, fun h1 => ?_, fun h0 => ?_⟩
  · rw [hregs]
    exact RegFile.get_set_self _ _ _
  · rw [hregs]
    exact RegFile.get_set_ne _ _ hp
  · rw [hcpsr, if_pos (hq.mpr h1)]
  · rw [hcpsr, if_neg (fun hb => h0 (hq.mp hb))]

end Sys2Proof.Machine
end

section
/-! SUPPORT. Reset, the banks of the registers, and access to the saved status registers. -/

namespace Sys2Proof.Machine

/-! ## Reset -/

/-- Every slot of a core after reset is empty. -/
theorem CoreState.slot_resetValue (cfg : Config) (k : CoreId) (j : Fin 3) :
    (CoreState.resetValue cfg k).slot j = Slot.empty := by
  match j with
  | 0 | 1 | 2 => rfl

/-- An empty slot is as the stages leave it. -/
theorem Slot.tagInv_empty (k : CoreId) (thumb : Bool) : Slot.empty.TagInv k thumb :=
  ⟨fun _ => by decide, fun h => absurd h (by decide)⟩

/-- The slots of a core after reset. -/
theorem CoreState.resetValue_slotInv (cfg : Config) (k : CoreId) : (CoreState.resetValue cfg k).SlotInv k := by
  refine ⟨fun j => ?_, fun _ => ⟨rfl, fun j => ?_⟩⟩ <;> rw [CoreState.slot_resetValue]
  · exact Slot.tagInv_empty k _
  · rfl

/-- The targets of a core after reset. -/
theorem CoreState.resetValue_stagingInv (cfg : Config) (k : CoreId) : (CoreState.resetValue cfg k).StagingInv := by
  intro j
  rw [CoreState.slot_resetValue]
  exact Slot.banked_of_clear rfl

/-- The status registers of a core after an architectural reset. -/
theorem CoreState.resetValue_psrInv {cfg : Config} (h : cfg.resetProfile = .architectural) (k : CoreId) :
    (CoreState.resetValue cfg k).PsrInv k := by
  have hcpsr : (CoreState.resetValue cfg k).cpsr = 0x000000D3#32 := by
    simp only [CoreState.resetValue, Config.resetCpsr, h]
  have hclean : ∀ k, PsrClean k 0x000000D3#32 ∧ PsrClean k 0#32 := fun k => by
    cases k <;> exact ⟨rfl, rfl⟩
  obtain ⟨hlive, hsaved⟩ := hclean k
  unfold CoreState.PsrInv
  rw [hcpsr]
  exact ⟨by decide, hlive, hsaved, hsaved, hsaved, hsaved, hsaved⟩

/-- Settles O9: each conjunct of the invariant at the values of reset. -/
theorem resetInv : Obligations.ResetInv := by
  unfold Obligations.ResetInv
  refine ⟨Memory.wf_reset, State.turnInv_iff.mpr rfl, fun k => ?_⟩
  have hcore : State.reset.cores.get k = CoreState.resetValue Config.default k := by cases k <;> rfl
  have haligned : ∀ k, (CoreState.resetValue Config.default k).Aligned := fun k => by cases k <;> rfl
  rw [hcore]
  exact ⟨CoreState.resetValue_psrInv rfl k, ⟨haligned k, CoreState.resetValue_stagingInv _ k⟩,
    CoreState.resetValue_slotInv _ k⟩

/-- Settles O17: the fields of the scheduler as `State.resetCore` and `State.reset` write them. -/
theorem schedulerReset : Obligations.SchedulerReset := by
  unfold Obligations.SchedulerReset
  exact ⟨fun _ _ => ⟨rfl, rfl, rfl, rfl, rfl, rfl⟩, rfl, rfl, rfl, rfl, rfl, rfl⟩

/-- Settles O18: the reset core is `CoreState.resetValue`, and the other one is not replaced. -/
theorem coreReset : Obligations.CoreReset := by
  unfold Obligations.CoreReset
  intro s k harch
  have hcore : (s.resetCore k).cores.get k = CoreState.resetValue s.cfg k := PerCore.get_set_self _ _ _
  have hregs : s.cfg.resetRegs k = { s.cfg.initGpr.get k with r15 := s.cfg.vbase.get k } := by
    simp only [Config.resetRegs, harch]
  have hcpsr : s.cfg.resetCpsr k = 0x000000D3#32 := by simp only [Config.resetCpsr, harch]
  dsimp only
  rw [hcore]
  refine ⟨hregs, hcpsr, rfl, rfl, rfl, rfl, rfl, fun j => ?_, rfl, rfl, rfl, rfl, rfl, rfl, rfl, rfl, rfl, rfl,
    fun k' hk => PerCore.get_set_ne _ _ hk⟩
  rw [CoreState.slot_resetValue]
  exact ⟨rfl, rfl, rfl⟩

/-! ## Banks -/

/-- r8 to r12 have a bank of FIQ and one of all other modes (10_state.md R23). -/
theorem phys_r8_r12_eq_iff {i : Reg} (h8 : 8 ≤ regNumber i) (h12 : regNumber i ≤ 12) (m m' : Mode) :
    phys i m = phys i m' ↔ (m = .fiq ↔ m' = .fiq) := by
  cases i with
  | r8 | r9 | r10 | r11 | r12 =>
    simp only [phys]
    by_cases hm : m = .fiq <;> by_cases hm' : m' = .fiq <;> simp [hm, hm']
  | r0 | r1 | r2 | r3 | r4 | r5 | r6 | r7 => exact absurd h8 (by decide)
  | r13 | r14 | r15 => exact absurd h12 (by decide)

/-- r13 and r14 have a bank of each mode, but that SYS has that of USR (10_state.md R22). -/
theorem phys_r13_r14_eq_iff {i : Reg} (h : i = .r13 ∨ i = .r14) (m m' : Mode) :
    phys i m = phys i m' ↔ m = m' ∨ (m = .usr ∧ m' = .sys) ∨ (m = .sys ∧ m' = .usr) := by
  obtain rfl | rfl := h <;> cases m <;> cases m' <;> decide

/-- Settles O26: r0 to r7 and r15 have one bank, r8 to r12 two, and r13 and r14 six. -/
theorem banksByMode : Obligations.BanksByMode := by
  unfold Obligations.BanksByMode
  intro i m m'
  cases i with
  | r0 | r1 | r2 | r3 | r4 | r5 | r6 | r7 => exact iff_of_true rfl (.inl (by decide))
  | r15 => exact iff_of_true rfl (.inr (.inl rfl))
  | r8 | r9 | r10 | r11 | r12 =>
    rw [phys_r8_r12_eq_iff (by decide) (by decide)]
    refine ⟨fun h => .inr (.inr (.inl ⟨by decide, by decide, h⟩)), ?_⟩
    rintro (h | h | ⟨-, -, h⟩ | rfl | ⟨rfl, rfl⟩ | ⟨rfl, rfl⟩)
    · exact absurd h (by decide)
    · cases h
    · exact h
    · exact Iff.rfl
    all_goals decide
  | r13 | r14 =>
    rw [phys_r13_r14_eq_iff (by decide)]
    refine ⟨fun h => .inr (.inr (.inr h)), ?_⟩
    rintro (h | h | ⟨-, h, -⟩ | h)
    · exact absurd h (by decide)
    · cases h
    · exact absurd h (by decide)
    · exact h

/-! ## Saved status registers -/

/-- Settles O27: the mode of cpsr selects the register that `spsrOf` reads and `setSpsrOf` writes. -/
theorem spsrAccess : Obligations.SpsrAccess := by
  unfold Obligations.SpsrAccess
  intro c k v
  unfold CoreState.getSpsr CoreState.setSpsr
  refine ⟨?_, ?_, ?_, ?_, ?_, ?_⟩
  · rintro (h | h) <;> rw [CoreState.mode_of_psrMode? h] <;> exact ⟨rfl, rfl⟩
  all_goals
    intro h
    rw [CoreState.mode_of_psrMode? h]
    exact ⟨rfl, rfl⟩

end Sys2Proof.Machine
end

section
/-! SUPPORT. What memory reads as after a word write: the bytes, the halfwords and the word. -/

namespace Sys2Proof.Machine

/-- The four bytes of a word write, at any address: they are distinct also where the address wraps. -/
theorem memByte_memStore_word_in {m : List Host.Cell} (h : Memory.wf m = true) (a v : Word) {n : Nat} (hn : n < 4) :
    memByte (memStore m a .word v) (a + BitVec.ofNat 32 n).toNat = v.extractLsb' (8 * n) 8 := by
  rw [memByte_memStore_word h]
  match n with
  | 0 | 1 | 2 | 3 => simp [-BitVec.toNat_add, BitVec.toNat_inj]

/-- A byte outside the access of a word write keeps its value. -/
theorem memByte_memStore_word_out {m : List Host.Cell} (h : Memory.wf m = true) (a v : Word) {b : Nat}
    (hb : ¬InAccess .word a b) : memByte (memStore m a .word v) b = memByte m b := by
  have hne : ∀ n < 4, b ≠ (a + BitVec.ofNat 32 n).toNat := fun n hn heq => hb ⟨n, hn, heq⟩
  have h0 := hne 0 (by decide)
  rw [BitVec.add_zero] at h0
  rw [memByte_memStore_word h, if_neg (hne 3 (by decide)), if_neg (hne 2 (by decide)), if_neg (hne 1 (by decide)),
    if_neg h0]

/-- A halfword inside the word reads as its 16 bits. -/
theorem memLoad_half_memStore_word {m : List Host.Cell} (h : Memory.wf m = true) (a v : Word) {n : Nat} (hn : n < 3) :
    memLoad (memStore m a .word v) (a + BitVec.ofNat 32 n) .half = (v.extractLsb' (8 * n) 16).setWidth 32 := by
  have hnext : a + BitVec.ofNat 32 n + 1#32 = a + BitVec.ofNat 32 (n + 1) := by
    rw [BitVec.add_assoc, BitVec.ofNat_add]
  simp only [memLoad, hnext, memByte_memStore_word_in h a v (show n < 4 by omega),
    memByte_memStore_word_in h a v (show n + 1 < 4 by omega)]
  rw [BitVec.extractLsb'_append_extractLsb'_eq_extractLsb' (by omega)]

/-- The word reads as it was written. -/
theorem memLoad_word_memStore_word {m : List Host.Cell} (h : Memory.wf m = true) (a v : Word) :
    memLoad (memStore m a .word v) a .word = v := by
  have hbyte {n : Nat} (hn : n < 4) := memByte_memStore_word_in h a v hn
  have h0 := hbyte (n := 0) (by decide)
  rw [BitVec.add_zero] at h0
  simp only [memLoad, h0, hbyte (n := 1) (by decide), hbyte (n := 2) (by decide), hbyte (n := 3) (by decide)]
  iterate 3 rw [BitVec.extractLsb'_append_extractLsb'_eq_extractLsb' (by decide)]
  exact BitVec.extractLsb'_eq_self

/-- Settles O28: the bytes of the word are the bytes of the value, and wider reads put bytes together.
The argument does not use that the address is aligned. -/
theorem readAfterWordWrite : Obligations.ReadAfterWordWrite := by
  unfold Obligations.ReadAfterWordWrite
  intro m a v h _
  refine ⟨fun n hn => ?_, fun j hj => ?_, memLoad_word_memStore_word h a v, fun b => memByte_memStore_word_out h a v⟩
  · exact congrArg (BitVec.setWidth 32) (memByte_memStore_word_in h a v hn)
  · have hhalf := memLoad_half_memStore_word h a v (n := 2 * j) (by omega)
    rwa [← Nat.mul_assoc] at hhalf

end Sys2Proof.Machine
end

section
/-! SUPPORT. What a step does to memory: a chain of writes of single bytes, so that the canonical form is kept. -/

namespace Sys2Proof.Machine

open Relation (ReflTransGen)

/-! ## Chains of byte writes -/

/-- The memory `m'` is reached from `m` by writes of single bytes (20_memory.md R62). -/
abbrev ByteWrites : List Host.Cell → List Host.Cell → Prop :=
  ReflTransGen fun m m' => ∃ (a : Word) (b : Byte), m' = memPut m a.toNat b

/-- Byte writes keep the canonical form. -/
theorem ByteWrites.wf {m m' : List Host.Cell} (h : ByteWrites m m') (hm : Memory.wf m = true) :
    Memory.wf m' = true := by
  induction h with
  | refl => exact hm
  | tail _ hput ih =>
    obtain ⟨a, b, rfl⟩ := hput
    exact Memory.wf_memPut ih

/-- One byte. -/
theorem ByteWrites.memPut (m : List Host.Cell) (a : Word) (b : Byte) : ByteWrites m (memPut m a.toNat b) :=
  .single ⟨a, b, rfl⟩

/-- A store writes the bytes of its width. -/
theorem ByteWrites.memStore (m : List Host.Cell) (a : Word) (w : Width) (v : Word) :
    ByteWrites m (memStore m a w v) := by
  have hbyte := ByteWrites.memPut m a (v.extractLsb' 0 8)
  have hhalf := hbyte.trans (ByteWrites.memPut _ (a + 1#32) (v.extractLsb' 8 8))
  cases w with
  | byte => exact hbyte
  | half => exact hhalf
  | word =>
    have hthree := hhalf.trans (ByteWrites.memPut _ (a + 2#32) (v.extractLsb' 16 8))
    exact hthree.trans (ByteWrites.memPut _ (a + 3#32) (v.extractLsb' 24 8))

/-- A list of bytes. -/
theorem ByteWrites.foldl_memPut (l : List (Word × Byte)) (m : List Host.Cell) :
    ByteWrites m (l.foldl (fun m x => Machine.memPut m x.1.toNat x.2) m) := by
  induction l generalizing m with
  | nil => exact .refl
  | cons x rest ih => exact (ByteWrites.memPut m x.1 x.2).trans (ih _)

/-! ## Shared operations -/

theorem ByteWrites.write (s : State) (a : Word) (w : Width) (v : Word) : ByteWrites s.mem (s.write a w v).mem :=
  .memStore s.mem a w v

@[simp] theorem State.writeBase_mem (s : State) (a : Addressing) (rn : Reg) : (s.writeBase a rn).mem = s.mem := by
  unfold State.writeBase
  split <;> rfl

@[simp] theorem State.writeBlockBase_mem (s : State) (w : Bool) (rn : Reg) (v : Word) :
    (s.writeBlockBase w rn v).mem = s.mem := by
  unfold State.writeBlockBase
  split <;> rfl

theorem Loader.Reads.mem_eq {ld : Loader} (h : ld.Reads) (k : CoreId) (s : State) (a : Word) :
    (ld k s a).2.mem = s.mem := by
  obtain ⟨a', w, heq⟩ := h k s a
  rw [heq, State.read_snd_mem]

theorem Storer.Writes.byteWrites {st : Storer} (h : st.Writes) (s : State) (a v : Word) :
    ByteWrites s.mem (st s a v).mem := by
  obtain ⟨a', w, heq⟩ := h s a v
  rw [heq]
  exact .write s a' w v

theorem loadMany_mem (user : Bool) (l : List Reg) (addr : Word) (s : State) : (loadMany user l addr s).mem = s.mem :=
  (loadMany_frame user l addr s).1

theorem ByteWrites.storeMany (value : Reg → Word) (l : List Reg) (addr : Word) (s : State) :
    ByteWrites s.mem (storeMany value l addr s).mem := by
  induction l generalizing addr s with
  | nil => exact .refl
  | cons i rest ih =>
    refine (ByteWrites.write s addr .word (value i)).trans ?_
    exact ih (addr + 4#32) ((s.write addr .word (value i)).onCur fun c => c.recordAddr i addr)

/-! ## Rules -/

/-- Whatever state a rule starts from, all it does to memory is to write bytes. -/
def Rule.WritesBytes (r : Rule) : Prop := ∀ s : State, ByteWrites s.mem (r s.turn s).final.mem

/-- A rule of one core writes no byte. -/
theorem onCore_mem (f : CoreRule) (k : CoreId) (s : State) : (onCore f k s).final.mem = s.mem := by
  unfold onCore
  split <;> rfl

theorem onCore_writes (f : CoreRule) : Rule.WritesBytes (onCore f) := fun s => by rw [onCore_mem]

theorem onCoreCfg_writes (f : Config → CoreRule) : Rule.WritesBytes (onCoreCfg f) := fun s => onCore_writes (f s.cfg) s

theorem loadRule_writes {ld : Loader} (h : ld.Reads) (rn rd : Reg) (a : CoreState → Addressing) :
    Rule.WritesBytes (loadRule ld rn rd a) := fun s => by
  simp only [loadRule, Result.final, State.stageReg_mem, State.writeBase_mem, h.mem_eq]
  exact .refl

theorem storeRule_writes {st : Storer} (h : st.Writes) (rn rd : Reg) (a : CoreState → Addressing) :
    Rule.WritesBytes (storeRule st rn rd a) := fun s => by
  simp only [storeRule, Result.final, State.writeBase_mem, State.onCur_mem]
  exact h.byteWrites s _ _

theorem ldrdRule_writes (rn rd : Reg) (a : CoreState → Addressing) : Rule.WritesBytes (ldrdRule rn rd a) := fun s => by
  simp only [ldrdRule, Result.final, State.stageReg_mem, State.writeBase_mem, State.read_snd_mem]
  exact .refl

theorem strdRule_writes (rn rd : Reg) (a : CoreState → Addressing) : Rule.WritesBytes (strdRule rn rd a) := fun s => by
  simp only [strdRule, Result.final, State.writeBase_mem, State.onCur_mem]
  exact (ByteWrites.write s _ .word _).trans (ByteWrites.write _ _ .word _)

theorem swapRule_writes {ld : Loader} {st : Storer} (hld : ld.Reads) (hst : st.Writes) (rn rd rm : Reg) :
    Rule.WritesBytes (swapRule ld st rn rd rm) := fun s => by
  have hwrite := hst.byteWrites (ld s.turn s (s.cur.reg rn)).2 (s.cur.reg rn) (s.cur.reg rm)
  rwa [hld.mem_eq] at hwrite

theorem ldmRule_writes (bm : BlockMode) (s w : Bool) (rn : Reg) (list : BitVec 16) :
    Rule.WritesBytes (ldmRule bm s w rn list) := fun st => by
  simp only [ldmRule, Result.final, State.writeBlockBase_mem, loadMany_mem]
  exact .refl

theorem stmRule_writes (bm : BlockMode) (s w : Bool) (rn : Reg) (list : BitVec 16) :
    Rule.WritesBytes (stmRule bm s w rn list) := fun st => by
  simp only [stmRule, Result.final, State.writeBlockBase_mem]
  exact .storeMany _ _ _ st

theorem thumbLoadRule_writes {ld : Loader} (h : ld.Reads) (rd : LoReg) (addr : CoreState → Word) :
    Rule.WritesBytes (thumbLoadRule ld rd addr) := fun s => by
  simp only [thumbLoadRule, Result.final, State.stageReg_mem, h.mem_eq]
  exact .refl

theorem thumbStoreRule_writes {st : Storer} (h : st.Writes) (rd : LoReg) (addr : CoreState → Word) :
    Rule.WritesBytes (thumbStoreRule st rd addr) :=
  fun s => h.byteWrites s _ _

theorem pushRule_writes (list : BitVec 16) : Rule.WritesBytes (pushRule list) := fun s => .storeMany _ _ _ s

theorem popRule_writes (list : BitVec 16) : Rule.WritesBytes (popRule list) := fun s => by
  simp only [popRule, Result.final, State.onCur_mem, loadMany_mem]
  exact .refl

theorem thumbStmRule_writes (rb : LoReg) (list : BitVec 16) : Rule.WritesBytes (thumbStmRule rb list) :=
  fun s => .storeMany _ _ _ s

theorem thumbLdmRule_writes (rb : LoReg) (list : BitVec 16) : Rule.WritesBytes (thumbLdmRule rb list) := fun s => by
  simp only [thumbLdmRule, Result.final, State.onCur_mem, loadMany_mem]
  exact .refl

/-- A service writes memory by the actions of its answer alone (60_exceptions.md R357). -/
theorem ByteWrites.biosActs (l : List BiosAction) (s : State) : ByteWrites s.mem (l.foldl State.biosAct s).mem := by
  induction l generalizing s with
  | nil => exact .refl
  | cons a rest ih =>
    have hact : ByteWrites s.mem (s.biosAct a).mem := by
      cases a with
      | setReg i v =>
        simp only [State.biosAct]
        split <;> exact .refl
      | read addr w => exact .refl
      | write addr w v => exact .write s _ w v
    exact hact.trans (ih _)

theorem hleSwi_writes (n : BitVec 8) : Rule.WritesBytes (hleSwi n) := by
  intro s
  unfold hleSwi
  split
  · exact .refl
  · exact .refl
  · exact .refl
  · exact .refl
  · split
    · exact .biosActs _ s
    · exact .refl

theorem swiRule_writes (n : BitVec 8) : Rule.WritesBytes (swiRule n) := by
  intro s
  unfold swiRule
  split
  · exact onCore_writes _ s
  · exact hleSwi_writes n s

theorem mcrRule_writes (r : Cp15Reg) (rd : Reg) : Rule.WritesBytes (mcrRule r rd) := by
  intro s
  have hmem : (s.cp15Write r (s.cur.reg rd)).mem = s.mem := by
    unfold State.cp15Write
    split <;> rfl
  unfold mcrRule
  split
  · exact .refl
  · simp only [Result.final, apply_ite State.mem, State.enterHalted_mem, ite_self, hmem]
    exact .refl

theorem mrcRule_writes (r : Cp15Reg) (rd : Reg) : Rule.WritesBytes (mrcRule r rd) := by
  intro s
  have hmem : (s.cp15Read r).2.mem = s.mem := by
    unfold State.cp15Read
    split <;> rfl
  unfold mrcRule
  split
  · exact .refl
  · simp only [Result.final, State.onCur_mem, hmem]
    exact .refl

/-! ## The common frame of the instructions -/

/-- The writeback stage writes registers only (41_pipeline.md R155). -/
theorem State.writeStaged_mem (s : State) (k : CoreId) (w : PcCommit) : (s.writeStaged k w).final.mem = s.mem := by
  unfold State.writeStaged
  split <;> rfl

/-- A recognized instruction does to memory what its rule does. -/
theorem State.perform_mem (s : State) (w : PcCommit) (r : Rule) : (s.perform w r).mem = (r s.turn s).final.mem := by
  cases hr : r s.turn s with
  | stop d t =>
    rw [State.perform_of_stop hr]
    rfl
  | done t =>
    have hstage := t.writeStaged_mem s.turn w
    simp only [State.perform, hr]
    split
    all_goals next heq =>
      rw [heq] at hstage
      exact hstage

theorem ByteWrites.runAlways {i : Instr} {w : PcCommit} {r : Rule} {s t : State} (h : runAlways i w r s = .next t)
    (hr : r.WritesBytes) : ByteWrites s.mem t.mem := by
  unfold Machine.runAlways at h
  split at h <;> cases h
  · rw [State.perform_mem]
    exact hr s
  · exact .refl

theorem ByteWrites.runCond {i : Instr} {c : Cond} {w : PcCommit} {r : Rule} {s t : State}
    (h : runCond i c w r s = .next t) (hr : r.WritesBytes) : ByteWrites s.mem t.mem := by
  unfold Machine.runCond at h
  split at h
  · exact .runAlways h hr
  · cases h
    exact .refl

theorem ByteWrites.runFastUncond {i : Instr} {r : Rule} {s t : State} (h : runFastUncond i r s = .next t)
    (hr : r.WritesBytes) : ByteWrites s.mem t.mem := by
  unfold Machine.runFastUncond at h
  split at h
  · exact .runAlways h hr
  · cases h
    exact .refl

/-- All that an instruction does to memory is to write bytes; the instructions that do not name memory, services or
CP15 are rules of one core. -/
theorem exec_writes {i : Instr} {s t : State} (h : exec i s = .next t) : ByteWrites s.mem t.mem := by
  cases i with
  | ldrImm | ldrReg | ldrtImm | ldrtReg => exact .runCond h (loadRule_writes loadWord_reads _ _ _)
  | ldrbImm | ldrbReg | ldrbtImm | ldrbtReg => exact .runCond h (loadRule_writes loadByte_reads _ _ _)
  | ldrh => exact .runCond h (loadRule_writes loadHalf_reads _ _ _)
  | ldrsb => exact .runCond h (loadRule_writes loadSignedByte_reads _ _ _)
  | ldrsh => exact .runCond h (loadRule_writes loadSignedHalf_reads _ _ _)
  | strImm | strReg | strtImm | strtReg => exact .runCond h (storeRule_writes storeWord_writes _ _ _)
  | strbImm | strbReg | strbtImm | strbtReg => exact .runCond h (storeRule_writes storeByte_writes _ _ _)
  | strh => exact .runCond h (storeRule_writes storeHalf_writes _ _ _)
  | ldrd => exact .runCond h (ldrdRule_writes _ _ _)
  | strd => exact .runCond h (strdRule_writes _ _ _)
  | ldm => exact .runCond h (ldmRule_writes _ _ _ _ _)
  | stm => exact .runCond h (stmRule_writes _ _ _ _ _)
  | swp => exact .runCond h (swapRule_writes loadWord_reads storeWord_writes _ _ _)
  | swpb => exact .runCond h (swapRule_writes loadByte_reads storeByte_writes _ _ _)
  | pld => exact .runFastUncond h fun _ => .refl
  | swi => exact .runCond h (swiRule_writes _)
  | bkpt => exact .runCond (i := .bkpt _) (c := .al) h fun _ => .refl
  | mcr => exact .runCond h (mcrRule_writes _ _)
  | mrc => exact .runCond h (mrcRule_writes _ _)
  | tLdrPc | tLdrReg | tLdrImm | tLdrSp => exact .runAlways h (thumbLoadRule_writes loadWord_reads _ _)
  | tLdrbReg | tLdrbImm => exact .runAlways h (thumbLoadRule_writes loadByte_reads _ _)
  | tLdrhReg | tLdrhImm => exact .runAlways h (thumbLoadRule_writes loadHalf_reads _ _)
  | tLdrsbReg => exact .runAlways h (thumbLoadRule_writes loadSignedByte_reads _ _)
  | tLdrshReg => exact .runAlways h (thumbLoadRule_writes loadSignedHalf_reads _ _)
  | tStrReg | tStrImm | tStrSp => exact .runAlways h (thumbStoreRule_writes storeWord_writes _ _)
  | tStrbReg | tStrbImm => exact .runAlways h (thumbStoreRule_writes storeByte_writes _ _)
  | tStrhReg | tStrhImm => exact .runAlways h (thumbStoreRule_writes storeHalf_writes _ _)
  | tPush => exact .runAlways h (pushRule_writes _)
  | tPop => exact .runAlways h (popRule_writes _)
  | tStmia => exact .runAlways h (thumbStmRule_writes _ _)
  | tLdmia => exact .runAlways h (thumbLdmRule_writes _ _)
  | tSwi => exact .runAlways h (swiRule_writes _)
  | blxImm => exact .runFastUncond h (onCore_writes _)
  | mul | mla | umull | umlal | smull | smlal => exact .runCond h (onCoreCfg_writes _)
  | tMulAlu => exact .runAlways h (onCoreCfg_writes _)
  | tLslImm | tLsrImm | tAsrImm | tLslAlu | tLsrAlu | tAsrAlu | tRorAlu | tAddReg | tSubReg | tAddImm3 | tSubImm3
  | tMovImm8 | tAddImm8 | tSubImm8 | tAndAlu | tEorAlu | tAdcAlu | tSbcAlu | tNegAlu | tOrrAlu | tBicAlu | tMvnAlu
  | tCmpImm8 | tTstAlu | tCmpAlu | tCmnAlu | tCmpHi | tAddHi | tMovHi | tAddPc | tAddSp | tIncSp | tDecSp | tBx
  | tBlxReg | tB | tBCond | tBlPrefix | tBlSuffix | tBlxSuffix => exact .runAlways h (onCore_writes _)
  | _ => exact .runCond h (onCore_writes _)

/-! ## The step -/

theorem ByteWrites.executeSlot {s t : State} (h : s.executeSlot = .next t) : ByteWrites s.mem t.mem := by
  have hunrecognized {t : State} (h : s.executeUnrecognized = .next t) : ByteWrites s.mem t.mem := by
    simp only [State.executeUnrecognized] at h
    split at h <;> cases h <;> exact .refl
  simp only [State.executeSlot] at h
  split at h
  · split at h
    · exact exec_writes h
    · exact hunrecognized h
  · exact hunrecognized h

theorem State.afterExecute_mem (s : State) : s.afterExecute.mem = s.mem := by
  unfold State.afterExecute State.irqDispatch
  split
  · split
    · split <;> rfl
    · rfl
  · rfl

theorem ByteWrites.pipelineCycle {s t : State} (h : s.pipelineCycle = .next t) : ByteWrites s.mem t.mem := by
  simp only [State.pipelineCycle] at h
  split at h
  · split at h
    · next u hu =>
      cases h
      rw [State.afterExecute_mem]
      exact ByteWrites.executeSlot (s := s.frontEnd.recordDispatch) hu
    · cases h
    · cases h
  · cases h
    exact .refl

/-- A pulse writes the bytes of its entry (60_exceptions.md R353). -/
theorem ByteWrites.beginTick (s : State) : ByteWrites s.mem s.beginTick.mem := by
  unfold State.beginTick State.pulse
  split
  · exact .refl
  · exact .foldl_memPut _ _

theorem State.idleStep_mem (s : State) : s.idleStep.mem = s.mem := by
  have hhalted : s.idleHalted.mem = s.mem := by
    unfold State.idleHalted
    split <;> rfl
  have hwait : s.idleWaitInterrupt.mem = s.mem := by
    unfold State.idleWaitInterrupt
    split <;> rfl
  unfold State.idleStep
  rw [State.onCur_mem]
  cases s.cur.idleState with
  | running => rfl
  | halted => exact hhalted
  | waitLoop => rfl
  | waitInterrupt => exact hwait

theorem State.settle_mem (s : State) : s.settle.mem = s.mem := by
  obtain ⟨b, h⟩ | ⟨b, h⟩ := s.settle_cases <;> exact (congrArg State.mem h).trans rfl

theorem ByteWrites.work {s t : State} (h : s.work = .next t) : ByteWrites s.mem t.mem := by
  refine (ByteWrites.beginTick s).trans ?_
  simp only [State.work] at h
  split at h
  · split at h
    · next u hu =>
      cases h
      rw [State.settle_mem]
      exact ByteWrites.pipelineCycle hu
    · cases h
    · cases h
  · cases h
    rw [State.settle_mem, State.idleStep_mem]

/-- A step does its work, from `s` or from `s` with the resume flag taken, or touches the halt flags only. -/
theorem step_cases (s : State) :
    step s = s.work ∨ step s = { s with bpResume := false }.work
      ∨ ∃ session debug, step s = .next { s with sessionHalted := session, debugHalted := debug } := by
  simp only [step, schedulerTick]
  split
  · exact .inr (.inr ⟨s.sessionHalted, s.debugHalted, rfl⟩)
  split
  · exact .inr (.inr ⟨true, s.debugHalted, rfl⟩)
  split
  · exact .inr (.inr ⟨s.sessionHalted, s.debugHalted, rfl⟩)
  split
  · exact .inl rfl
  split
  · exact .inr (.inl rfl)
  split
  · exact .inr (.inr ⟨s.sessionHalted, true, rfl⟩)
  · exact .inl rfl

/-- All that a step does to memory is to write bytes. -/
theorem step_writes {s t : State} (h : step s = .next t) : ByteWrites s.mem t.mem := by
  obtain hwork | hwork | ⟨session, debug, hhalt⟩ := step_cases s
  · exact .work (hwork.symm.trans h)
  · exact ByteWrites.work (s := { s with bpResume := false }) (hwork.symm.trans h)
  · cases hhalt.symm.trans h
    exact .refl

/-- Settles O10: a step writes single bytes at 32-bit addresses, and each such write keeps the canonical form. -/
theorem stepKeepsMemoryCanonical : Obligations.StepKeepsMemoryCanonical := by
  unfold Obligations.StepKeepsMemoryCanonical
  exact fun _ _ hwf h => (step_writes h).wf hwf

/-- The work of a tick answers a next state. -/
theorem State.work_next (s : State) : ∃ t, s.work = .next t := by
  simp only [State.work]
  split
  · obtain ⟨t, ht⟩ := s.beginTick.pipelineCycle_next
    rw [ht]
    exact ⟨_, rfl⟩
  · exact ⟨_, rfl⟩

/-- Settles O6: a tick answers a state at once or does its work, which runs at most one instruction. -/
theorem stepAnswersNext : Obligations.StepAnswersNext := by
  unfold Obligations.StepAnswersNext
  intro s
  obtain hwork | hwork | ⟨session, debug, hhalt⟩ := step_cases s
  · rw [hwork]
    exact s.work_next
  · rw [hwork]
    exact State.work_next _
  · exact ⟨_, hhalt⟩

end Sys2Proof.Machine
end

section
/-! SUPPORT. The class of an ARM word: the tests of 30_encoding.md R95 decided from the opcode byte and bits 7:4, and from
there to the shapes of words that the encoder writes. -/

namespace Sys2Proof

section
variable {k : CoreId} {f : ArmFields}

/-! ## The opcode byte -/

/-- No opcode byte of the upper half passes a test that is meant for the lower half. -/
theorem upperByte_tests : ∀ hi : BitVec 8, hi.extractLsb' 6 2 ≠ 0b00#2 →
    hi ≠ 0x10#8 ∧ hi ≠ 0x12#8 ∧ hi ≠ 0x14#8 ∧ hi ≠ 0x16#8 ∧ hi ≠ 0x32#8 ∧ hi ≠ 0x36#8 ∧ hi.extractLsb' 3 5 ≠ 0b00010#5
      ∧ hi.extractLsb' 2 6 ≠ 0b000000#6 ∧ hi.extractLsb' 3 5 ≠ 0b00001#5 ∧ hi.extractLsb' 5 3 ≠ 0b000#3
      ∧ hi.extractLsb' 3 5 ≠ 0b00110#5 := by
  decide

/-- No opcode byte `001x xxxx` passes a test that is meant for `000x xxxx`. -/
theorem immediateByte_tests : ∀ hi : BitVec 8, hi.extractLsb' 5 3 = 0b001#3 →
    hi ≠ 0x10#8 ∧ hi ≠ 0x12#8 ∧ hi ≠ 0x14#8 ∧ hi ≠ 0x16#8 ∧ hi.extractLsb' 3 5 ≠ 0b00010#5
      ∧ hi.extractLsb' 2 6 ≠ 0b000000#6 ∧ hi.extractLsb' 3 5 ≠ 0b00001#5 := by
  decide

theorem extract_top2 (hi : BitVec 8) : hi.extractLsb' 6 2 = (hi.extractLsb' 5 3).extractLsb' 1 2 := by grind

theorem extract_top3 (hi : BitVec 8) : hi.extractLsb' 5 3 = (hi.extractLsb' 4 4).extractLsb' 1 3 := by grind

/-! ## The classes of the upper half -/

theorem classifyArm_blxi (hk : k = .fast) (hc : f.c = 0xF#4) (hhi : f.hi.extractLsb' 5 3 = 0b101#3) :
    classifyArm k f = .A_BLXI := by
  simp only [classifyArm, hk, hc, hhi, and_self, if_true]

theorem classifyArm_sdt (hhi : f.hi.extractLsb' 6 2 = 0b01#2)
    (hpld : ¬(f.hi.getLsbD 4 = true ∧ f.hi.extractLsb' 0 3 = 0b101#3 ∧ f.d = 0xF#4))
    (hlo : ¬(f.hi.extractLsb' 5 3 = 0b011#3 ∧ f.lo.getLsbD 0 = true)) : classifyArm k f = .A_SDT := by
  have htests := upperByte_tests f.hi (by rw [hhi]; decide)
  have hblxi : f.hi.extractLsb' 5 3 ≠ 0b101#3 := fun h => by
    rw [extract_top2, h] at hhi
    exact absurd hhi (by decide)
  simp only [classifyArm, *, ne_eq, and_false, false_and, or_self, if_true, if_false, BitVec.reduceEq]

theorem classifyArm_bdt (hhi : f.hi.extractLsb' 5 3 = 0b100#3) : classifyArm k f = .A_BDT := by
  have htop : f.hi.extractLsb' 6 2 = 0b10#2 := by rw [extract_top2, hhi]; rfl
  have htests := upperByte_tests f.hi (by rw [htop]; decide)
  simp only [classifyArm, *, ne_eq, and_false, false_and, or_self, if_true, if_false, BitVec.reduceEq]

theorem classifyArm_b (hhi : f.hi.extractLsb' 5 3 = 0b101#3) (hblxi : ¬(k = .fast ∧ f.c = 0xF#4)) :
    classifyArm k f = .A_B := by
  have htop : f.hi.extractLsb' 6 2 = 0b10#2 := by rw [extract_top2, hhi]; rfl
  have htests := upperByte_tests f.hi (by rw [htop]; decide)
  simp only [classifyArm, *, ne_eq, and_false, false_and, and_true, or_self, if_true, if_false, BitVec.reduceEq]

theorem classifyArm_cp (hk : k = .fast) (hhi : f.hi.extractLsb' 4 4 = 0b1110#4) (hlo : f.lo.getLsbD 0 = true)
    (hs : f.s = 0xF#4) : classifyArm k f = .A_CP := by
  have htop3 : f.hi.extractLsb' 5 3 = 0b111#3 := by rw [extract_top3, hhi]; rfl
  have htop2 : f.hi.extractLsb' 6 2 = 0b11#2 := by rw [extract_top2, htop3]; rfl
  have htests := upperByte_tests f.hi (by rw [htop2]; decide)
  simp only [classifyArm, *, ne_eq, and_false, false_and, and_self, or_self, if_true, if_false, BitVec.reduceEq]

theorem classifyArm_swi (hhi : f.hi.extractLsb' 4 4 = 0b1111#4) : classifyArm k f = .A_SWI := by
  have htop3 : f.hi.extractLsb' 5 3 = 0b111#3 := by rw [extract_top3, hhi]; rfl
  have htop2 : f.hi.extractLsb' 6 2 = 0b11#2 := by rw [extract_top2, htop3]; rfl
  have htests := upperByte_tests f.hi (by rw [htop2]; decide)
  simp only [classifyArm, *, ne_eq, and_false, false_and, or_self, if_false, BitVec.reduceEq]

/-! ## Data processing -/

/-- What the decoder reads from the opcode byte of a data-processing word. -/
theorem dpHi_fields : ∀ (i : Bool) (op : BitVec 4) (s : Bool),
    (dpHi i op s).getLsbD 5 = i ∧ (dpHi i op s).extractLsb' 1 4 = op ∧ (dpHi i op s).getLsbD 0 = s
      ∧ (dpHi i op s).extractLsb' 6 2 = 0b00#2 ∧ (dpHi i op s).extractLsb' 5 3 = 0b00#2 ++ bit i := by
  decide

/-- A compare without S is no data processing (30_encoding.md R95); no other opcode byte is taken for something else. -/
theorem dpHi_tests : ∀ (i : Bool) (op : BitVec 4) (s : Bool), (op.extractLsb' 2 2 != 0b10#2 || s) = true →
    dpHi i op s ≠ 0x10#8 ∧ dpHi i op s ≠ 0x12#8 ∧ dpHi i op s ≠ 0x14#8 ∧ dpHi i op s ≠ 0x16#8
      ∧ dpHi i op s ≠ 0x32#8 ∧ dpHi i op s ≠ 0x36#8
      ∧ ((dpHi i op s).extractLsb' 3 5 ≠ 0b00010#5 ∨ (dpHi i op s).getLsbD 0 = true)
      ∧ ¬((dpHi i op s).extractLsb' 3 5 = 0b00110#5 ∧ (dpHi i op s).extractLsb' 0 2 = 0b00#2) := by
  decide

theorem classifyArm_dpImm {op : BitVec 4} {s : Bool} (hop : (op.extractLsb' 2 2 != 0b10#2 || s) = true)
    (c n d r lo m : BitVec 4) : classifyArm k ⟨c, dpHi true op s, n, d, r, lo, m⟩ = .A_DP := by
  obtain ⟨-, -, -, htop2, htop3⟩ := dpHi_fields true op s
  replace htop3 : (dpHi true op s).extractLsb' 5 3 = 0b001#3 := htop3
  obtain ⟨-, -, -, -, h32, h36, -, hundefined⟩ := dpHi_tests true op s hop
  have htests := immediateByte_tests _ htop3
  simp only [classifyArm, *, ne_eq, and_false, false_and, or_self, if_true, if_false, BitVec.reduceEq]

/-- The register forms are told from multiplies and halfword transfers by bits 7:4. -/
theorem classifyArm_dpShift {op : BitVec 4} {s : Bool} (hop : (op.extractLsb' 2 2 != 0b10#2 || s) = true)
    {lo : BitVec 4} (hnine : lo ≠ 9#4) (hlo : lo.getLsbD 3 = false ∨ lo.getLsbD 0 = false) (c n d r m : BitVec 4) :
    classifyArm k ⟨c, dpHi false op s, n, d, r, lo, m⟩ = .A_DP := by
  obtain ⟨-, -, -, htop2, htop3⟩ := dpHi_fields false op s
  replace htop3 : (dpHi false op s).extractLsb' 5 3 = 0b000#3 := htop3
  obtain ⟨h10, h12, h14, h16, h32, h36, hmisc | hs, hundefined⟩ := dpHi_tests false op s hop <;>
    obtain hlo | hlo := hlo <;>
    simp only [classifyArm, *, ne_eq, and_false, false_and, and_true, or_self, if_true, if_false, BitVec.reduceEq,
      Bool.false_eq_true, Bool.true_eq_false]

/-! ## Transfers -/

/-- What the decoder reads from the opcode byte of a single transfer. -/
theorem sdtHi_fields : ∀ i p up b w l : Bool,
    (sdtHi i p up b w l).getLsbD 5 = i ∧ (sdtHi i p up b w l).getLsbD 4 = p ∧ (sdtHi i p up b w l).getLsbD 3 = up
      ∧ (sdtHi i p up b w l).getLsbD 2 = b ∧ (sdtHi i p up b w l).getLsbD 1 = w ∧ (sdtHi i p up b w l).getLsbD 0 = l
      ∧ (sdtHi i p up b w l).extractLsb' 6 2 = 0b01#2 ∧ (sdtHi i p up b w l).extractLsb' 5 3 = 0b01#2 ++ bit i
      ∧ (sdtHi i p up b w l).extractLsb' 0 3 = bit b ++ bit w ++ bit l := by
  decide

/-- A byte transfer of a register other than r15 is no PLD. -/
theorem classifyArm_sdtHi {b : Bool} {d : BitVec 4} (hd : b = true → d ≠ 0xF#4) {i : Bool} {lo : BitVec 4}
    (hlo : i = true → lo.getLsbD 0 = false) (p up w l : Bool) (c n r m : BitVec 4) :
    classifyArm k ⟨c, sdtHi i p up b w l, n, d, r, lo, m⟩ = .A_SDT := by
  obtain ⟨-, -, -, -, -, -, htop2, htop3, hlow3⟩ := sdtHi_fields i p up b w l
  refine classifyArm_sdt htop2 ?_ ?_
  · rintro ⟨-, hbits, hfifteen⟩
    rw [hlow3] at hbits
    cases b with
    | false => exact absurd hbits (by cases w <;> cases l <;> decide)
    | true => exact hd rfl hfifteen
  · rintro ⟨hbits, hone⟩
    rw [htop3] at hbits
    cases i with
    | false => exact absurd hbits (by decide)
    | true => exact absurd hone (by rw [hlo rfl]; decide)

/-- What the decoder reads from the opcode byte of a halfword transfer. -/
theorem hdtHi_fields : ∀ p up i w l : Bool,
    (hdtHi p up i w l).getLsbD 4 = p ∧ (hdtHi p up i w l).getLsbD 3 = up ∧ (hdtHi p up i w l).getLsbD 2 = i
      ∧ (hdtHi p up i w l).getLsbD 1 = w ∧ (hdtHi p up i w l).getLsbD 0 = l
      ∧ (hdtHi p up i w l).extractLsb' 6 2 = 0b00#2 ∧ (hdtHi p up i w l).extractLsb' 5 3 = 0b000#3
      ∧ hdtHi p up i w l ≠ 0x32#8 ∧ hdtHi p up i w l ≠ 0x36#8 := by
  decide

/-- Bits 7:4 of a halfword transfer, `1SH1` with SH other than 00. -/
theorem hdtLo_fields : ∀ sh : BitVec 2, sh ≠ 0b00#2 →
    (1#1 ++ sh ++ 1#1).extractLsb' 1 2 = sh ∧ (1#1 ++ sh ++ 1#1).getLsbD 3 = true
      ∧ (1#1 ++ sh ++ 1#1).getLsbD 2 = sh.getLsbD 1 ∧ (1#1 ++ sh ++ 1#1).getLsbD 0 = true ∧ (1#1 ++ sh ++ 1#1) ≠ 0x0#4
      ∧ (1#1 ++ sh ++ 1#1) ≠ 0x1#4 ∧ (1#1 ++ sh ++ 1#1) ≠ 0x3#4 ∧ (1#1 ++ sh ++ 1#1) ≠ 0x5#4
      ∧ (1#1 ++ sh ++ 1#1) ≠ 0x7#4 ∧ (1#1 ++ sh ++ 1#1) ≠ 0x9#4 := by
  decide

/-- The doubleword transfers are the ones of FAST only. -/
theorem classifyArm_hdtHi {sh : BitVec 2} (hsh : sh ≠ 0b00#2) {l : Bool}
    (hk : l = false ∧ sh.getLsbD 1 = true → k = .fast) (p up i w : Bool) (c n d r m : BitVec 4) :
    classifyArm k ⟨c, hdtHi p up i w l, n, d, r, 1#1 ++ sh ++ 1#1, m⟩ = .A_HDT := by
  have hfields := hdtHi_fields p up i w l
  have htests := hdtLo_fields sh hsh
  simp only [classifyArm, hfields, htests, hsh, ne_eq, and_false, false_and, or_self, if_true, if_false, BitVec.reduceEq,
    not_false_eq_true, and_self, Bool.true_eq_false]
  split
  · next h => simp only [hk h, if_true]
  · rfl

/-- The opcode byte of a block transfer: `100 P U S W L` (30_encoding.md R88). -/
def bdtHi (p up s w l : Bool) : BitVec 8 := 0b100#3 ++ bit p ++ bit up ++ bit s ++ bit w ++ bit l

theorem encBdt_eq (c : Cond) (bm : BlockMode) (s w l : Bool) (rn : Reg) (list : BitVec 16) :
    encBdt c bm s w l rn list =
      armWord c (bdtHi bm.toBits.1 bm.toBits.2 s w l) rn.toBits (list.extractLsb' 12 4) (list.extractLsb' 8 4)
        (list.extractLsb' 4 4) (list.extractLsb' 0 4) := rfl

/-- What the decoder reads from the opcode byte of a block transfer. -/
theorem bdtHi_fields : ∀ p up s w l : Bool,
    (bdtHi p up s w l).getLsbD 4 = p ∧ (bdtHi p up s w l).getLsbD 3 = up ∧ (bdtHi p up s w l).getLsbD 2 = s
      ∧ (bdtHi p up s w l).getLsbD 1 = w ∧ (bdtHi p up s w l).getLsbD 0 = l
      ∧ (bdtHi p up s w l).extractLsb' 5 3 = 0b100#3 := by
  decide

/-! ## Branches, SWI and coprocessor transfers -/

/-- What the decoder reads from an opcode byte whose low half belongs to a 24-bit field. -/
theorem hi24_fields : ∀ top x : BitVec 4,
    (top ++ x).extractLsb' 4 4 = top ∧ (top ++ x).extractLsb' 5 3 = top.extractLsb' 1 3
      ∧ (top ++ x).getLsbD 4 = top.getLsbD 0 ∧ (top ++ x).extractLsb' 0 4 = x := by
  decide

/-- What the decoder reads from the opcode byte of a coprocessor transfer. -/
theorem cpHi_fields : ∀ (op1 : BitVec 3) (l : BitVec 1),
    (0b1110#4 ++ op1 ++ l).extractLsb' 4 4 = 0b1110#4 ∧ (0b1110#4 ++ op1 ++ l).extractLsb' 1 3 = op1
      ∧ (0b1110#4 ++ op1 ++ l).getLsbD 0 = l.getLsbD 0 := by
  decide

/-- Bits 7:4 of a coprocessor transfer. -/
theorem cpLo_fields : ∀ op2 : BitVec 3, (op2 ++ 1#1).extractLsb' 1 3 = op2 ∧ (op2 ++ 1#1).getLsbD 0 = true := by
  decide

/-! ## The words that stop -/

theorem classifyArm_of_armBkpt? {i : Instr} (h : armBkpt? f = some i) : classifyArm k f = .UNRECOGNIZED := by
  unfold armBkpt? at h
  split at h
  · next hpattern =>
    obtain ⟨hc, hhi, hlo⟩ := hpattern
    simp [classifyArm, hc, hhi, hlo]
  · cases h

theorem classifyArm_of_blxImmOnSlow (h : blxImmOnSlow k f = true) : f.c = 0xF#4 ∧ classifyArm k f = .A_B := by
  simp only [blxImmOnSlow, Bool.and_eq_true, beq_iff_eq] at h
  obtain ⟨⟨hk, hc⟩, hhi⟩ := h
  refine ⟨hc, classifyArm_b hhi ?_⟩
  rw [hk]
  rintro ⟨⟨⟩, -⟩

end

end Sys2Proof
end

section
/-! SUPPORT. Decoding what the encoder wrote, ARM words: each shape of word gives back its operands. -/

namespace Sys2Proof

/-! ## Operands cut into fields and put together again -/

theorem append_nibbles2 (v : BitVec 8) : v.extractLsb' 4 4 ++ v.extractLsb' 0 4 = v := by grind

theorem append_nibbles3 (v : BitVec 12) : v.extractLsb' 8 4 ++ v.extractLsb' 4 4 ++ v.extractLsb' 0 4 = v := by grind

theorem append_nibbles4 (v : BitVec 16) :
    v.extractLsb' 12 4 ++ v.extractLsb' 8 4 ++ v.extractLsb' 4 4 ++ v.extractLsb' 0 4 = v := by
  grind

theorem append_nibbles6 (v : BitVec 24) :
    v.extractLsb' 20 4 ++ v.extractLsb' 16 4 ++ v.extractLsb' 12 4 ++ v.extractLsb' 8 4 ++ v.extractLsb' 4 4
      ++ v.extractLsb' 0 4 = v := by
  grind

/-- What the decoder reads from bits 7:4 of a shift by an immediate. -/
theorem shiftLo_fields (amount : BitVec 5) (ty : ShiftType) :
    amount.extractLsb' 1 4 ++ (shiftLo amount ty).extractLsb' 3 1 = amount
      ∧ (shiftLo amount ty).extractLsb' 1 2 = ty.toBits ∧ (shiftLo amount ty).getLsbD 0 = false
      ∧ shiftLo amount ty ≠ 9#4 := by
  cases ty <;> revert amount <;> decide

/-- What the decoder reads from bits 7:4 of a shift by a register. -/
theorem shiftRegLo_fields (ty : ShiftType) :
    (shiftRegLo ty).extractLsb' 1 2 = ty.toBits ∧ (shiftRegLo ty).getLsbD 3 = false
      ∧ (shiftRegLo ty).getLsbD 0 = true ∧ shiftRegLo ty ≠ 9#4 := by
  cases ty <;> decide

/-- The addressing mode is read back, and is none of the T forms. -/
theorem IndexMode.toBits_fields (mode : IndexMode) :
    IndexMode.ofBits mode.toBits.1 mode.toBits.2 = mode ∧ (!mode.toBits.1 && mode.toBits.2) = false := by
  cases mode <;> decide

theorem Reg.toBits_ne_fifteen {r : Reg} (h : r ≠ .r15) : r.toBits ≠ 0xF#4 := fun hbits =>
  h (by rw [← Reg.ofBits_toBits r, hbits]; rfl)

theorem Cond.toBits_ne_fifteen {c : Cond} (h : c ≠ .nv) : c.toBits ≠ 0xF#4 := fun hbits =>
  h (by rw [← Cond.ofBits_toBits c, hbits]; rfl)

/-- No predictable byte transfer names r15. -/
theorem sdtUnpredictable_byte {wb : Bool} {rn rd : Reg} {rm : Option Reg}
    (h : sdtUnpredictable wb true rn rd rm = false) : rd.toBits ≠ 0xF#4 := by
  refine Reg.toBits_ne_fifteen ?_
  rintro rfl
  simp [sdtUnpredictable] at h

/-! ## From the class to the instruction -/

section
variable {k : CoreId} {i : Instr} {t : Tag} {c : Cond}

theorem decodeWord_toWord (k : CoreId) (f : ArmFields) : decodeWord k false f.toWord = decodeArmFields k f := by
  simp only [decodeWord, ArmFields.ofWord_toWord, Bool.false_eq_true, if_false]

/-- A word of a class decodes to what the class reads from it: the tests outside the class agree with the class test. -/
theorem decodeArmFields_of_class {f : ArmFields} (hclass : classifyArm k f = t) (hinstr : armInstr t f = some i)
    (hu : i.unpredictable = false) (hrec : t ≠ .UNRECOGNIZED) (hb : t = .A_B → f.c ≠ 0xF#4) :
    decodeArmFields k f = .ok i := by
  have hbkpt : armBkpt? f = none := by
    cases h : armBkpt? f with
    | none => rfl
    | some j => exact absurd (hclass.symm.trans (classifyArm_of_armBkpt? h)) hrec
  have hblx : ¬(blxImmOnSlow k f = true) := fun h => by
    obtain ⟨hc, hfall⟩ := classifyArm_of_blxImmOnSlow h
    exact hb (hclass.symm.trans hfall) hc
  simp only [decodeArmFields, hbkpt, hclass, hrec, hblx, or_self, if_false, finishDecode, hinstr, hu, Bool.false_eq_true]

theorem decodeWord_armWord {hi : BitVec 8} {n d s lo m : BitVec 4}
    (hclass : classifyArm k ⟨c.toBits, hi, n, d, s, lo, m⟩ = t)
    (hinstr : armInstr t ⟨c.toBits, hi, n, d, s, lo, m⟩ = some i) (hu : i.unpredictable = false)
    (hrec : t ≠ .UNRECOGNIZED) (hb : t ≠ .A_B) : decodeWord k false (armWord c hi n d s lo m) = .ok i := by
  rw [armWord, decodeWord_toWord, decodeArmFields_of_class hclass hinstr hu hrec (fun h => absurd h hb)]

theorem decodeWord_enc24 {c top : BitVec 4} {v : BitVec 24}
    (hclass : classifyArm k ⟨c, top ++ v.extractLsb' 20 4, v.extractLsb' 16 4, v.extractLsb' 12 4, v.extractLsb' 8 4,
      v.extractLsb' 4 4, v.extractLsb' 0 4⟩ = t)
    (hinstr : armInstr t ⟨c, top ++ v.extractLsb' 20 4, v.extractLsb' 16 4, v.extractLsb' 12 4, v.extractLsb' 8 4,
      v.extractLsb' 4 4, v.extractLsb' 0 4⟩ = some i)
    (hu : i.unpredictable = false) (hrec : t ≠ .UNRECOGNIZED) (hb : t = .A_B → c ≠ 0xF#4) :
    decodeWord k false (enc24 c top v) = .ok i := by
  rw [enc24, decodeWord_toWord, decodeArmFields_of_class hclass hinstr hu hrec hb]

theorem decodeWord_dpImm {op n d rot : BitVec 4} {s : Bool} {imm8 : BitVec 8}
    (hinstr : armDp ⟨c.toBits, dpHi true op s, n, d, rot, imm8.extractLsb' 4 4, imm8.extractLsb' 0 4⟩ = some i)
    (hu : i.unpredictable = false) (hop : (op.extractLsb' 2 2 != 0b10#2 || s) = true) :
    decodeWord k false (encDpImm c op s n d rot imm8) = .ok i :=
  decodeWord_armWord (classifyArm_dpImm hop ..) hinstr hu nofun nofun

theorem decodeWord_dpShiftImm {op n d : BitVec 4} {s : Bool} {amount : BitVec 5} {ty : ShiftType} {rm : Reg}
    (hinstr : armDp ⟨c.toBits, dpHi false op s, n, d, amount.extractLsb' 1 4, shiftLo amount ty, rm.toBits⟩ = some i)
    (hu : i.unpredictable = false) (hop : (op.extractLsb' 2 2 != 0b10#2 || s) = true) :
    decodeWord k false (encDpShiftImm c op s n d amount ty rm) = .ok i := by
  obtain ⟨-, -, hbit0, hnine⟩ := shiftLo_fields amount ty
  exact decodeWord_armWord (classifyArm_dpShift hop hnine (.inr hbit0) ..) hinstr hu nofun nofun

theorem decodeWord_dpShiftReg {op n d : BitVec 4} {s : Bool} {rs : Reg} {ty : ShiftType} {rm : Reg}
    (hinstr : armDp ⟨c.toBits, dpHi false op s, n, d, rs.toBits, shiftRegLo ty, rm.toBits⟩ = some i)
    (hu : i.unpredictable = false) (hop : (op.extractLsb' 2 2 != 0b10#2 || s) = true) :
    decodeWord k false (encDpShiftReg c op s n d rs ty rm) = .ok i := by
  obtain ⟨-, hbit3, -, hnine⟩ := shiftRegLo_fields ty
  exact decodeWord_armWord (classifyArm_dpShift hop hnine (.inl hbit3) ..) hinstr hu nofun nofun

theorem decodeWord_sdtImm {pw : Bool × Bool} {up b l : Bool} {rn rd : Reg} {imm12 : BitVec 12}
    (hinstr : armSdt ⟨c.toBits, sdtHi false pw.1 up b pw.2 l, rn.toBits, rd.toBits, imm12.extractLsb' 8 4,
      imm12.extractLsb' 4 4, imm12.extractLsb' 0 4⟩ = some i)
    (hu : i.unpredictable = false) (hd : b = true → rd.toBits ≠ 0xF#4) :
    decodeWord k false (encSdtImm c pw up b l rn rd imm12) = .ok i :=
  decodeWord_armWord (classifyArm_sdtHi hd (i := false) nofun ..) hinstr hu nofun nofun

theorem decodeWord_sdtReg {pw : Bool × Bool} {up b l : Bool} {rn rd : Reg} {amount : BitVec 5} {ty : ShiftType}
    {rm : Reg}
    (hinstr : armSdt ⟨c.toBits, sdtHi true pw.1 up b pw.2 l, rn.toBits, rd.toBits, amount.extractLsb' 1 4,
      shiftLo amount ty, rm.toBits⟩ = some i)
    (hu : i.unpredictable = false) (hd : b = true → rd.toBits ≠ 0xF#4) :
    decodeWord k false (encSdtReg c pw up b l rn rd amount ty rm) = .ok i := by
  obtain ⟨-, -, hbit0, -⟩ := shiftLo_fields amount ty
  exact decodeWord_armWord (classifyArm_sdtHi hd (fun _ => hbit0) ..) hinstr hu nofun nofun

/-- Both forms of the offset at once: `s` and `m` are the fields from which bit I reads it. -/
theorem decodeWord_hdt {mode : IndexMode} {up l : Bool} {sh : BitVec 2} {rn rd : Reg} {off : HdtOffset}
    (hinstr : ∀ (imm : Bool) (s m : BitVec 4), (if imm then .imm (s ++ m) else .reg (Reg.ofBits m)) = off →
      armHdt ⟨c.toBits, hdtHi mode.toBits.1 up imm mode.toBits.2 l, rn.toBits, rd.toBits, s, 1#1 ++ sh ++ 1#1, m⟩ = some i)
    (hu : i.unpredictable = false) (hsh : sh ≠ 0b00#2) (hk : l = false ∧ sh.getLsbD 1 = true → k = .fast) :
    decodeWord k false (encHdt c mode up l sh rn rd off) = .ok i := by
  cases off with
  | imm v =>
    exact decodeWord_armWord (classifyArm_hdtHi hsh hk ..)
      (hinstr true _ _ (congrArg HdtOffset.imm (append_nibbles2 v))) hu nofun nofun
  | reg rm =>
    exact decodeWord_armWord (classifyArm_hdtHi hsh hk ..)
      (hinstr false _ _ (congrArg HdtOffset.reg (Reg.ofBits_toBits rm))) hu nofun nofun

/-! ## The statement -/

/-- Each row of the table of 30_encoding.md R88: its word has the class of the instruction, which reads the operands back. -/
theorem decodeWord_encode_arm (hwf : i.wf k = true) (harm : i.isThumb = false) :
    decodeWord k false (encode i) = .ok i := by
  simp only [Instr.wf, Bool.and_eq_true, Bool.not_eq_true'] at hwf
  obtain ⟨⟨havail, hu⟩, hcond⟩ := hwf
  have hfast : i.fastOnly = true → k = .fast := fun h => by
    simpa only [Instr.availableOn, h, Bool.not_true, Bool.or_false, beq_iff_eq] using havail
  cases i with
  | andImm | eorImm | subImm | rsbImm | addImm | adcImm | sbcImm | rscImm | tstImm | teqImm | cmpImm | cmnImm | orrImm
  | movImm | bicImm | mvnImm =>
    refine decodeWord_dpImm ?_ hu rfl
    rw [armDp, (dpHi_fields ..).1, (dpHi_fields ..).2.1]
    exact congrArg some (by simp only [Cond.ofBits_toBits, Reg.ofBits_toBits, append_nibbles2, dpHi_fields])
  | andShiftImm | eorShiftImm | subShiftImm | rsbShiftImm | addShiftImm | adcShiftImm | sbcShiftImm | rscShiftImm
  | tstShiftImm | teqShiftImm | cmpShiftImm | cmnShiftImm | orrShiftImm | movShiftImm | bicShiftImm | mvnShiftImm =>
    refine decodeWord_dpShiftImm ?_ hu rfl
    rw [armDp, (dpHi_fields ..).1, (dpHi_fields ..).2.1, (shiftLo_fields ..).2.2.1]
    exact congrArg some
      (by simp only [Cond.ofBits_toBits, Reg.ofBits_toBits, ShiftType.ofBits_toBits, shiftLo_fields, dpHi_fields])
  | andShiftReg | eorShiftReg | subShiftReg | rsbShiftReg | addShiftReg | adcShiftReg | sbcShiftReg | rscShiftReg
  | tstShiftReg | teqShiftReg | cmpShiftReg | cmnShiftReg | orrShiftReg | movShiftReg | bicShiftReg | mvnShiftReg =>
    refine decodeWord_dpShiftReg ?_ hu rfl
    rw [armDp, (dpHi_fields ..).1, (dpHi_fields ..).2.1, (shiftRegLo_fields ..).2.2.1]
    exact congrArg some
      (by simp only [Cond.ofBits_toBits, Reg.ofBits_toBits, ShiftType.ofBits_toBits, shiftRegLo_fields, dpHi_fields])
  | mrs c spsr =>
    refine decodeWord_armWord (t := .A_MRS) ?_ ?_ hu nofun nofun
    · cases spsr <;> simp [classifyArm]
    · cases spsr <;> simp [armInstr]
  | msrReg c spsr | msrImm c spsr =>
    refine decodeWord_armWord (t := .A_MSR) ?_ ?_ hu nofun nofun
    · cases spsr <;> simp [classifyArm]
    · cases spsr <;> simp [armInstr, append_nibbles2]
  | mul c s | mla c s =>
    refine decodeWord_armWord (t := .A_MUL) ?_ ?_ hu nofun nofun
    · cases s <;> simp [classifyArm]
    · cases s <;> simp [armInstr]
  | umull c s | umlal c s | smull c s | smlal c s =>
    refine decodeWord_armWord (t := .A_MULL) ?_ ?_ hu nofun nofun
    · cases s <;> simp [classifyArm]
    · cases s <;> simp [armInstr]
  | clz =>
    refine decodeWord_armWord (t := .A_CLZ) ?_ ?_ hu nofun nofun
    · simp [classifyArm, hfast rfl]
    · simp [armInstr]
  | qadd | qsub | qdadd | qdsub =>
    refine decodeWord_armWord (t := .A_QARITH) ?_ ?_ hu nofun nofun
    · simp [classifyArm, hfast rfl]
    · simp [armInstr]
  | smlaXY c x y | smlalXY c x y | smulXY c x y =>
    refine decodeWord_armWord (t := .A_DSPMUL) ?_ ?_ hu nofun nofun
    · cases x <;> cases y <;> simp [classifyArm, hfast rfl]
    · cases x <;> cases y <;> simp [armInstr]
  | smlawY c y | smulwY c y =>
    refine decodeWord_armWord (t := .A_DSPMUL) ?_ ?_ hu nofun nofun
    · cases y <;> simp [classifyArm, hfast rfl]
    · cases y <;> simp [armInstr]
  | ldrImm | strImm =>
    refine decodeWord_sdtImm ?_ hu nofun
    simp only [armSdt, sdtHi_fields, IndexMode.toBits_fields, Cond.ofBits_toBits, Reg.ofBits_toBits, append_nibbles3]
  | ldrbImm | strbImm =>
    refine decodeWord_sdtImm ?_ hu fun _ => sdtUnpredictable_byte hu
    simp only [armSdt, sdtHi_fields, IndexMode.toBits_fields, Cond.ofBits_toBits, Reg.ofBits_toBits, append_nibbles3]
  | ldrtImm | strtImm =>
    refine decodeWord_sdtImm ?_ hu nofun
    simp only [armSdt, sdtHi_fields, Cond.ofBits_toBits, Reg.ofBits_toBits, append_nibbles3, Bool.not_false,
      Bool.and_self]
  | ldrbtImm | strbtImm =>
    refine decodeWord_sdtImm ?_ hu fun _ => sdtUnpredictable_byte hu
    simp only [armSdt, sdtHi_fields, Cond.ofBits_toBits, Reg.ofBits_toBits, append_nibbles3, Bool.not_false,
      Bool.and_self]
  | ldrReg | strReg =>
    refine decodeWord_sdtReg ?_ hu nofun
    simp only [armSdt, sdtHi_fields, IndexMode.toBits_fields, Cond.ofBits_toBits, Reg.ofBits_toBits,
      ShiftType.ofBits_toBits, shiftLo_fields]
  | ldrbReg | strbReg =>
    refine decodeWord_sdtReg ?_ hu fun _ => sdtUnpredictable_byte hu
    simp only [armSdt, sdtHi_fields, IndexMode.toBits_fields, Cond.ofBits_toBits, Reg.ofBits_toBits,
      ShiftType.ofBits_toBits, shiftLo_fields]
  | ldrtReg | strtReg =>
    refine decodeWord_sdtReg ?_ hu nofun
    simp only [armSdt, sdtHi_fields, Cond.ofBits_toBits, Reg.ofBits_toBits, ShiftType.ofBits_toBits, shiftLo_fields,
      Bool.not_false, Bool.and_self]
  | ldrbtReg | strbtReg =>
    refine decodeWord_sdtReg ?_ hu fun _ => sdtUnpredictable_byte hu
    simp only [armSdt, sdtHi_fields, Cond.ofBits_toBits, Reg.ofBits_toBits, ShiftType.ofBits_toBits, shiftLo_fields,
      Bool.not_false, Bool.and_self]
  | ldrh | strh | ldrsb | ldrsh =>
    refine decodeWord_hdt (fun imm s m hoff => ?_) hu (by decide) (by simp)
    rw [armHdt, (hdtLo_fields _ (by decide)).1]
    simp only [hdtHi_fields, IndexMode.toBits_fields, Cond.ofBits_toBits, Reg.ofBits_toBits, hoff, BitVec.reduceToNat,
      if_false, Bool.false_eq_true]
  | ldrd | strd =>
    refine decodeWord_hdt (fun imm s m hoff => ?_) hu (by decide) fun _ => hfast rfl
    rw [armHdt, (hdtLo_fields _ (by decide)).1]
    simp only [hdtHi_fields, IndexMode.toBits_fields, Cond.ofBits_toBits, Reg.ofBits_toBits, hoff, BitVec.reduceToNat,
      if_false, Bool.false_eq_true]
  | ldm | stm =>
    obtain ⟨-, -, -, -, -, htop⟩ := bdtHi_fields _ _ _ _ _
    refine (congrArg (decodeWord k false) (encBdt_eq ..)).trans
      (decodeWord_armWord (classifyArm_bdt htop) ?_ hu nofun nofun)
    simp only [armInstr, bdtHi_fields, Cond.ofBits_toBits, Reg.ofBits_toBits, BlockMode.ofBits_toBits, append_nibbles4,
      if_true, if_false, Bool.false_eq_true]
  | swp | swpb =>
    refine decodeWord_armWord (t := .A_SWP) ?_ ?_ hu nofun nofun
    · simp [classifyArm]
    · simp [armInstr]
  | pld regOff up =>
    refine decodeWord_armWord (t := .A_PLD) ?_ ?_ hu nofun nofun
    · cases regOff <;> cases up <;> simp [classifyArm, hfast rfl, Cond.toBits]
    · cases regOff <;> cases up <;> simp [armInstr, append_nibbles3]
  | b c off | bl c off =>
    have hc : c.toBits ≠ 0xF#4 := Cond.toBits_ne_fifteen (by simpa only [Instr.condEncodable, bne_iff_ne] using hcond)
    obtain ⟨-, htop, -⟩ := hi24_fields _ _
    refine decodeWord_enc24 (classifyArm_b htop fun h => hc h.2) ?_ hu nofun fun _ => hc
    simp only [armInstr, hi24_fields, Cond.ofBits_toBits, append_nibbles6]
    rfl
  | bx =>
    refine decodeWord_armWord (t := .A_BX) ?_ ?_ hu nofun nofun
    · simp [classifyArm]
    · simp [armInstr]
  | blxImm h off =>
    refine decodeWord_enc24 (t := .A_BLXI) (classifyArm_blxi (hfast rfl) rfl ?_) ?_ hu nofun nofun
    · rw [(hi24_fields ..).2.1]
      cases h <;> decide
    · simp only [armInstr, hi24_fields, append_nibbles6]
      cases h <;> rfl
  | blxReg =>
    refine decodeWord_armWord (t := .A_BLXR) ?_ ?_ hu nofun nofun
    · simp [classifyArm, hfast rfl]
    · simp [armInstr]
  | swi =>
    refine decodeWord_enc24 (classifyArm_swi (hi24_fields ..).1) ?_ hu nofun nofun
    simp only [armInstr, hi24_fields, Cond.ofBits_toBits, append_nibbles6]
  | bkpt =>
    refine (decodeWord_toWord k _).trans ?_
    simp [decodeArmFields, armBkpt?, Cond.toBits, append_nibbles4]
  | mcr | mrc =>
    refine decodeWord_armWord (classifyArm_cp (hfast rfl) (cpHi_fields ..).1 (cpLo_fields _).2 rfl) ?_ hu nofun nofun
    simp only [armInstr, cpHi_fields, cpLo_fields, Cond.ofBits_toBits, Reg.ofBits_toBits]
    rfl
  | _ => nomatch harm

/-- The decoder puts the four bytes of a word together and leaves the rest. -/
theorem decode_bytesOfWord {w : Word} (h : decodeWord k false w = .ok i) (rest : List Byte) :
    decode k false (bytesOfWord w ++ rest) = .ok (i, rest) := by
  have hword : wordOfBytes (w.extractLsb' 0 8) (w.extractLsb' 8 8) (w.extractLsb' 16 8) (w.extractLsb' 24 8) = w := by
    unfold wordOfBytes
    grind
  simp only [bytesOfWord, List.cons_append, List.nil_append, decode, hword, h, Except.map]

end

/-- Settles O1: the bytes are those of the word, and the word decodes to the instruction. -/
theorem decodeEncodeArm : Obligations.DecodeEncodeArm := by
  unfold Obligations.DecodeEncodeArm
  intro k i rest hwf harm
  have hbytes : encodeBytes i = bytesOfWord (encode i) := by
    rw [encodeBytes, harm]
    rfl
  rw [hbytes]
  exact decode_bytesOfWord (decodeWord_encode_arm hwf harm) rest

end Sys2Proof
end

section
/-! SUPPORT. Decoding what the encoder wrote, Thumb halfwords. -/

namespace Sys2Proof

/-! ## Operands cut into fields and put together again -/

theorem append_imm5 (v : BitVec 5) : v.extractLsb' 2 3 ++ v.extractLsb' 0 2 = v := by grind

theorem append_imm8 (v : BitVec 8) : v.extractLsb' 6 2 ++ v.extractLsb' 3 3 ++ v.extractLsb' 0 3 = v := by grind

theorem append_imm11 (v : BitVec 11) :
    v.extractLsb' 8 3 ++ v.extractLsb' 6 2 ++ v.extractLsb' 3 3 ++ v.extractLsb' 0 3 = v := by
  grind

/-- What the decoder reads from a 3-bit operand below a 2-bit opcode. -/
theorem threeBit_fields : ∀ (op : BitVec 2) (x : BitVec 3),
    (op ++ x.extractLsb' 2 1).getLsbD 2 = op.getLsbD 1 ∧ (op ++ x.extractLsb' 2 1).getLsbD 1 = op.getLsbD 0
      ∧ (op ++ x.extractLsb' 2 1).extractLsb' 0 1 ++ x.extractLsb' 0 2 = x := by
  decide

/-- What the decoder reads from the register fields of format 5. -/
theorem highRegs_fields : ∀ d m : BitVec 4,
    (d.extractLsb' 3 1 ++ m.extractLsb' 3 1).extractLsb' 1 1 ++ d.extractLsb' 0 3 = d
      ∧ (d.extractLsb' 3 1 ++ m.extractLsb' 3 1).extractLsb' 0 1 ++ m.extractLsb' 0 3 = m
      ∧ (d.extractLsb' 3 1 ++ m.extractLsb' 3 1).getLsbD 1 = d.getLsbD 3
      ∧ (d.extractLsb' 3 1 ++ m.extractLsb' 3 1 = 0b00#2 → (!d.getLsbD 3 && !m.getLsbD 3) = true) := by
  decide

/-- What the decoder reads from the sign and the offset of format 13. -/
theorem spOffset_fields : ∀ (sign : BitVec 1) (v : BitVec 7),
    ((sign ++ v).extractLsb' 6 2).getLsbD 1 = sign.getLsbD 0
      ∧ ((sign ++ v).extractLsb' 6 2).extractLsb' 0 1 ++ (sign ++ v).extractLsb' 3 3 ++ (sign ++ v).extractLsb' 0 3 = v := by
  decide

/-- What the decoder reads from the even offset of the BLX suffix. -/
theorem blxOffset_fields (v : BitVec 10) :
    ((v ++ 0#1).extractLsb' 0 3).getLsbD 0 = false
      ∧ (v ++ 0#1).extractLsb' 8 3 ++ (v ++ 0#1).extractLsb' 6 2 ++ (v ++ 0#1).extractLsb' 3 3
        ++ ((v ++ 0#1).extractLsb' 0 3).extractLsb' 1 2 = v := by
  constructor <;> grind

/-! ## From the class to the instruction -/

section
variable {k : CoreId} {i : Instr} {t : Tag}

/-- A halfword of a class decodes to what the class reads from it. -/
theorem half_decodes_of_class {top : BitVec 5} {u s d : BitVec 3} {v : BitVec 2}
    (hclass : classifyThumb k ⟨top, u, v, s, d⟩ = t) (hinstr : thumbInstr t ⟨top, u, v, s, d⟩ = some i)
    (hu : i.unpredictable = false) (hrec : t ≠ .UNRECOGNIZED) :
    ∃ h : Half, half (thumbHalf top u v s d) = half h ∧ decodeThumbFields k (ThumbFields.ofHalf h) = .ok i := by
  refine ⟨_, rfl, ?_⟩
  simp only [thumbHalf, ThumbFields.ofHalf_toHalf, decodeThumbFields, hclass, hrec, if_false, hinstr, finishDecode, hu,
    Bool.false_eq_true]

/-- Each row of the table of 30_encoding.md R93: its halfword has the class of the instruction, which reads the operands
back. -/
theorem encode_thumb_decodes (hwf : i.wf k = true) (hthumb : i.isThumb = true) :
    ∃ h : Half, encode i = half h ∧ decodeThumbFields k (ThumbFields.ofHalf h) = .ok i := by
  simp only [Instr.wf, Bool.and_eq_true, Bool.not_eq_true'] at hwf
  obtain ⟨⟨havail, hu⟩, hcond⟩ := hwf
  have hfast : i.fastOnly = true → k = .fast := fun h => by
    simpa only [Instr.availableOn, h, Bool.not_true, Bool.or_false, beq_iff_eq] using havail
  cases i with
  | tLslImm | tLsrImm | tAsrImm =>
    refine half_decodes_of_class (t := .T1_SHIFT) ?_ ?_ hu nofun
    · simp [classifyThumb]
    · simp [thumbInstr, append_imm5]
  | tAddReg | tSubReg | tAddImm3 | tSubImm3 =>
    refine half_decodes_of_class (t := .T2_ADDSUB) ?_ ?_ hu nofun
    · simp [classifyThumb]
    · simp only [thumbInstr, threeBit_fields, LoReg.ofBits_toBits]
      rfl
  | tMovImm8 | tCmpImm8 | tAddImm8 | tSubImm8 =>
    refine half_decodes_of_class (t := .T3_IMM) ?_ ?_ hu nofun
    · simp [classifyThumb]
    · simp [thumbInstr, append_imm8]
  | tAndAlu | tEorAlu | tLslAlu | tLsrAlu | tAsrAlu | tAdcAlu | tSbcAlu | tRorAlu | tTstAlu | tNegAlu | tCmpAlu | tCmnAlu
  | tOrrAlu | tMulAlu | tBicAlu | tMvnAlu =>
    refine half_decodes_of_class (t := .T4_ALU) ?_ ?_ hu nofun
    · simp [classifyThumb]
    · simp [thumbInstr]
  | tAddHi rd rm | tMovHi rd rm =>
    have hlow : rd.toBits.extractLsb' 3 1 ++ rm.toBits.extractLsb' 3 1 ≠ 0b00#2 := fun h => by
      rw [Instr.unpredictable, (highRegs_fields ..).2.2.2 h] at hu
      cases hu
    refine half_decodes_of_class (t := .T5_HIREG) ?_ ?_ hu nofun
    · simp [classifyThumb, hlow]
    · simp only [thumbInstr, highRegs_fields, Reg.ofBits_toBits]
      rfl
  | tCmpHi rd rm =>
    have hlow : rd.toBits.extractLsb' 3 1 ++ rm.toBits.extractLsb' 3 1 ≠ 0b00#2 := fun h => by
      rw [Instr.unpredictable, (highRegs_fields ..).2.2.2 h] at hu
      cases hu
    refine half_decodes_of_class (t := .T5_HIREG) ?_ ?_ hu nofun
    · simp [classifyThumb, hlow]
    · simp only [thumbInstr, highRegs_fields, Reg.ofBits_toBits]
      rfl
  | tBx =>
    refine half_decodes_of_class (t := .T5_HIREG) ?_ ?_ hu nofun
    · simp only [classifyThumb, highRegs_fields]
      simp
    · simp only [thumbInstr, highRegs_fields, Reg.ofBits_toBits]
      rfl
  | tBlxReg =>
    refine half_decodes_of_class (t := .T5_HIREG) ?_ ?_ hu nofun
    · simp only [classifyThumb, highRegs_fields, hfast rfl]
      simp
    · simp only [thumbInstr, highRegs_fields, Reg.ofBits_toBits]
      rfl
  | tLdrPc =>
    refine half_decodes_of_class (t := .T6_LDRPC) ?_ ?_ hu nofun
    · simp [classifyThumb]
    · simp [thumbInstr, append_imm8]
  | tStrReg | tStrbReg | tLdrReg | tLdrbReg =>
    refine half_decodes_of_class (t := .T7_LSREG) ?_ ?_ hu nofun
    · simp only [classifyThumb, threeBit_fields]
      simp
    · simp only [thumbInstr, threeBit_fields, LoReg.ofBits_toBits]
      rfl
  | tStrhReg | tLdrsbReg | tLdrhReg | tLdrshReg =>
    refine half_decodes_of_class (t := .T8_LSHREG) ?_ ?_ hu nofun
    · simp only [classifyThumb, threeBit_fields]
      simp
    · simp only [thumbInstr, threeBit_fields, LoReg.ofBits_toBits]
      rfl
  | tStrImm | tLdrImm | tStrbImm | tLdrbImm =>
    refine half_decodes_of_class (t := .T9_LSIMM) ?_ ?_ hu nofun
    · simp [classifyThumb]
    · simp [thumbInstr, append_imm5]
  | tStrhImm | tLdrhImm =>
    refine half_decodes_of_class (t := .T10_LSHIMM) ?_ ?_ hu nofun
    · simp [classifyThumb]
    · simp [thumbInstr, append_imm5]
  | tStrSp | tLdrSp =>
    refine half_decodes_of_class (t := .T11_LSSP) ?_ ?_ hu nofun
    · simp [classifyThumb]
    · simp [thumbInstr, append_imm8]
  | tAddPc | tAddSp =>
    refine half_decodes_of_class (t := .T12_ADDR) ?_ ?_ hu nofun
    · simp [classifyThumb]
    · simp [thumbInstr, append_imm8]
  | tIncSp | tDecSp =>
    refine half_decodes_of_class (t := .T13_ADDSP) ?_ ?_ hu nofun
    · simp [classifyThumb]
    · simp only [thumbInstr, spOffset_fields]
      rfl
  | tPush lr | tPop lr =>
    refine half_decodes_of_class (t := .T14_PUSHPOP) ?_ ?_ hu nofun
    · cases lr <;> simp [classifyThumb]
    · cases lr <;> simp [thumbInstr, append_imm8]
  | tStmia | tLdmia =>
    refine half_decodes_of_class (t := .T15_LSM) ?_ ?_ hu nofun
    · simp [classifyThumb]
    · simp [thumbInstr, append_imm8]
  | tBCond c =>
    simp only [Instr.condEncodable, Bool.and_eq_true, bne_iff_ne] at hcond
    obtain ⟨hal, hnv⟩ := hcond
    refine half_decodes_of_class (t := .T16_BCOND) ?_ ?_ hu nofun
    · cases c <;> simp [classifyThumb, Cond.toBits] at hal hnv ⊢
    · cases c <;> simp [thumbInstr, append_imm8, Cond.toBits, Cond.ofBits]
  | tSwi =>
    refine half_decodes_of_class (t := .T17_SWI) ?_ ?_ hu nofun
    · simp [classifyThumb]
    · simp [thumbInstr, append_imm8]
  | tB =>
    refine half_decodes_of_class (t := .T18_B) ?_ ?_ hu nofun
    · simp [classifyThumb]
    · simp [thumbInstr, append_imm11]
  | tBlPrefix | tBlSuffix =>
    refine half_decodes_of_class (t := .T19_BL) ?_ ?_ hu nofun
    · simp [classifyThumb]
    · simp [thumbInstr, append_imm11]
  | tBlxSuffix off =>
    refine half_decodes_of_class (t := .T19_BL) ?_ ?_ hu nofun
    · simp only [classifyThumb, blxOffset_fields, hfast rfl]
      simp
    · simp only [thumbInstr, blxOffset_fields]
      rfl
  | _ => nomatch hthumb

/-- The two bytes of a halfword, put together. -/
theorem wordOfBytes_half (h : Half) :
    (wordOfBytes ((half h).extractLsb' 0 8) ((half h).extractLsb' 8 8) 0#8 0#8).extractLsb' 0 16 = h := by
  apply BitVec.eq_of_getLsbD_eq
  intro j hj
  simp only [wordOfBytes, half, BitVec.getLsbD_extractLsb', BitVec.getLsbD_append, BitVec.getLsbD_setWidth]
  by_cases hlow : j < 8
  · simp [hlow]
    grind
  · simp [hlow, hj, show j - 8 < 8 by omega]
    grind

/-- The decoder puts the two bytes of a halfword together and leaves the rest. -/
theorem decode_bytesOfHalf {h : Half} (hi : decodeThumbFields k (ThumbFields.ofHalf h) = .ok i) (rest : List Byte) :
    decode k true ((bytesOfWord (half h)).take 2 ++ rest) = .ok (i, rest) := by
  simp only [bytesOfWord, List.take_succ_cons, List.take_zero, List.cons_append, List.nil_append, decode, decodeWord,
    if_true, wordOfBytes_half, hi, Except.map]

end

/-- Settles O2: the bytes are those of a halfword, and the halfword decodes to the instruction. -/
theorem decodeEncodeThumb : Obligations.DecodeEncodeThumb := by
  unfold Obligations.DecodeEncodeThumb
  intro k i rest hwf hthumb
  obtain ⟨h, hencode, hdecode⟩ := encode_thumb_decodes hwf hthumb
  have hbytes : encodeBytes i = (bytesOfWord (half h)).take 2 := by
    rw [encodeBytes, hthumb, hencode]
    rfl
  rw [hbytes]
  exact decode_bytesOfHalf hdecode rest

end Sys2Proof
end

section
/-! CERTIFICATE. Words of the encoding tables. -/

namespace Sys2Proof

/-- Settles O4, by evaluating the decoder on each of the nine words. -/
theorem decodeWordsSanity : Obligations.DecodeWordsSanity := by
  unfold Obligations.DecodeWordsSanity
  exact ⟨rfl, rfl, rfl, rfl, rfl, rfl, rfl, rfl, rfl⟩

end Sys2Proof
end

section
/-! SUPPORT. What the decoder answers: its class, its instruction set and the core that has it. -/

namespace Sys2Proof

/-! ## Instructions of one core, and instructions that not every condition fits -/

/-- The ARM classes that only FAST has; of A_HDT it has LDRD and STRD besides (30_encoding.md R99). -/
def Tag.fastClass : Tag → Bool
  | .A_BLXI | .A_PLD | .A_BLXR | .A_CLZ | .A_QARITH | .A_DSPMUL | .A_CP => true
  | _ => false

theorem Instr.availableOn_of_fastOnly {k : CoreId} {i : Instr} (h : i.fastOnly = true → k = .fast) :
    i.availableOn k = true := by
  cases hi : i.fastOnly with
  | false => simp [Instr.availableOn, hi]
  | true => simp [Instr.availableOn, h hi]

theorem Instr.tag_of_fastOnly {i : Instr} (h : i.fastOnly = true) :
    i.tag.fastClass = true ∨ i.tag = .A_HDT ∨ i.tag = .T5_HIREG ∨ i.tag = .T19_BL := by
  cases i with
  | clz | qadd | qsub | qdadd | qdsub | smlaXY | smlawY | smulwY | smlalXY | smulXY | pld | blxImm | blxReg | mcr | mrc =>
    exact .inl rfl
  | ldrd | strd => exact .inr (.inl rfl)
  | tBlxReg => exact .inr (.inr (.inl rfl))
  | tBlxSuffix => exact .inr (.inr (.inr rfl))
  | _ => nomatch h

theorem Instr.tag_of_not_condEncodable {i : Instr} (h : i.condEncodable = false) :
    i.tag = .A_B ∨ i.tag = .T16_BCOND := by
  cases i with
  | b | bl => exact .inl rfl
  | tBCond => exact .inr rfl
  | _ => nomatch h

theorem finishDecode_ok {o : Option Instr} {i : Instr} (h : finishDecode o = .ok i) :
    o = some i ∧ i.unpredictable = false := by
  unfold finishDecode at h
  split at h
  · cases h
  · split at h <;> cases h
    exact ⟨rfl, Bool.eq_false_of_not_eq_true ‹_›⟩

/-! ## The class of what a word reads as -/

section
variable {k : CoreId} {i : Instr} {t : Tag} {f : ArmFields}

theorem armDp_tag (h : armDp f = some i) : i.tag = .A_DP ∧ i.isThumb = false := by
  unfold armDp at h
  extract_lets _ _ _ _ _ _ _ _ _ form at h
  clear_value form
  split at h <;> cases h <;> exact ⟨rfl, rfl⟩

theorem armSdt_tag (h : armSdt f = some i) : i.tag = .A_SDT ∧ i.isThumb = false := by
  revert h
  fun_cases armSdt f <;> rintro ⟨⟩ <;> exact ⟨rfl, rfl⟩

theorem armHdt_tag (h : armHdt f = some i) : i.tag = .A_HDT ∧ i.isThumb = false := by
  revert h
  fun_cases armHdt f <;> rintro ⟨⟩ <;> exact ⟨rfl, rfl⟩

theorem armInstr_tag (h : armInstr t f = some i) : i.tag = t ∧ i.isThumb = false := by
  cases t with
  | A_DP => exact armDp_tag h
  | A_SDT => exact armSdt_tag h
  | A_HDT => exact armHdt_tag h
  | A_MRS | A_BX | A_BLXR | A_CLZ | A_BLXI | A_PLD | A_SWI =>
    cases h
    exact ⟨rfl, rfl⟩
  | A_MSR | A_MUL | A_MULL | A_SWP | A_QARITH | A_BDT | A_B | A_CP =>
    simp only [armInstr] at h
    split at h <;> cases h <;> exact ⟨rfl, rfl⟩
  | A_DSPMUL =>
    simp only [armInstr] at h
    split at h
    case h_2 => split at h <;> cases h <;> exact ⟨rfl, rfl⟩
    all_goals
      cases h
      exact ⟨rfl, rfl⟩
  | _ => nomatch h

/-- Of the halfword transfers LDRD and STRD are the ones of FAST. -/
theorem armHdt_fastOnly (h : armHdt f = some i) (hi : i.fastOnly = true) :
    f.hi.getLsbD 0 = false ∧ f.lo.getLsbD 2 = true := by
  have hbit : ∀ lo : BitVec 4, 2 ≤ (lo.extractLsb' 1 2).toNat → lo.getLsbD 2 = true := by decide
  revert h hi
  fun_cases armHdt f
  case case6 hsh hl | case7 hsh hl =>
    intro _ _
    exact ⟨hl, hbit _ (by omega)⟩
  all_goals
    rintro ⟨⟩ <;> nofun

/-- A branch word reads its condition from bits 31:28. -/
theorem armInstr_branch (h : armInstr .A_B f = some i) (hc : f.c ≠ 0xF#4) : i.condEncodable = true := by
  have hnv : (Cond.ofBits f.c != .nv) = true := by
    rw [bne_iff_ne]
    exact fun h => hc (by rw [← Cond.toBits_ofBits f.c, h]; rfl)
  simp only [armInstr] at h
  split at h <;> cases h <;> exact hnv

/-! ## The class test on SLOW -/

/-- A class that only FAST has is a class of FAST. -/
theorem fast_of_fastClass (h : (classifyArm k f).fastClass = true) : k = .fast := by
  revert h
  fun_cases classifyArm k f
  case case1 h | case2 h => exact fun _ => h.1
  case case4 | case6 | case8 | case11 => exact fun _ => by assumption
  case case31 h => exact fun _ => h.1
  all_goals nofun

theorem fast_of_doubleword (h : classifyArm k f = .A_HDT) (hhi : f.hi.getLsbD 0 = false) (hlo : f.lo.getLsbD 2 = true) :
    k = .fast := by
  revert h
  fun_cases classifyArm k f
  case case19 => exact fun _ => by assumption
  case case21 h => exact absurd ⟨hhi, hlo⟩ h
  all_goals nofun

/-- A word of the class of B and BL has the opcode byte of a branch, and is no BLX immediate. -/
theorem classifyArm_branch (h : classifyArm k f = .A_B) :
    f.hi.extractLsb' 5 3 = 0b101#3 ∧ ¬(k = .fast ∧ f.c = 0xF#4) := by
  revert h
  fun_cases classifyArm k f
  case case29 =>
    have hhi : f.hi.extractLsb' 5 3 = 0b101#3 := by assumption
    have hblxi : ¬(k = .fast ∧ f.c = 0xF#4 ∧ f.hi.extractLsb' 5 3 = 0b101#3) := by assumption
    exact fun _ => ⟨hhi, fun ⟨hk, hc⟩ => hblxi ⟨hk, hc, hhi⟩⟩
  all_goals nofun

theorem availableOn_of_armInstr (h : armInstr (classifyArm k f) f = some i) : i.availableOn k = true := by
  have htag := (armInstr_tag h).1
  have hfast : i.fastOnly = true → k = .fast := fun hi => by
    obtain hclass | hclass | hclass | hclass := Instr.tag_of_fastOnly hi <;> rw [htag] at hclass
    · exact fast_of_fastClass hclass
    · obtain ⟨hhi, hlo⟩ := armHdt_fastOnly (by rwa [hclass] at h) hi
      exact fast_of_doubleword hclass hhi hlo
    · rw [hclass] at h
      cases h
    · rw [hclass] at h
      cases h
  exact Instr.availableOn_of_fastOnly hfast

theorem condEncodable_of_armInstr (h : armInstr (classifyArm k f) f = some i) (hblx : blxImmOnSlow k f ≠ true) :
    i.condEncodable = true := by
  by_contra hcond
  rw [Bool.not_eq_true] at hcond
  obtain hclass | hclass := Instr.tag_of_not_condEncodable hcond <;> rw [(armInstr_tag h).1] at hclass
  · obtain ⟨hhi, hfast⟩ := classifyArm_branch hclass
    have hc : f.c ≠ 0xF#4 := fun hc => by
      cases k with
      | fast => exact hfast ⟨rfl, hc⟩
      | slow => exact hblx (by simp [blxImmOnSlow, hc, hhi])
    rw [hclass] at h
    rw [armInstr_branch h hc] at hcond
    cases hcond
  · rw [hclass] at h
    cases h

/-- What an ARM word decodes to. -/
theorem wf_of_decodeArmFields (h : decodeArmFields k f = .ok i) : i.wf k = true ∧ i.isThumb = false := by
  unfold decodeArmFields at h
  split at h
  · next j hbkpt =>
    cases h
    unfold armBkpt? at hbkpt
    split at hbkpt <;> cases hbkpt
    exact ⟨by simp [Instr.wf, Instr.availableOn, Instr.fastOnly, Instr.unpredictable, Instr.condEncodable], rfl⟩
  · dsimp only at h
    split at h
    · cases h
    · next hrec =>
      obtain ⟨-, hblx⟩ := not_or.mp hrec
      obtain ⟨hi, hu⟩ := finishDecode_ok h
      refine ⟨?_, (armInstr_tag hi).2⟩
      simp [Instr.wf, availableOn_of_armInstr hi, condEncodable_of_armInstr hi hblx, hu]

end

/-! ## Thumb -/

section
variable {k : CoreId} {i : Instr} {t : Tag} {f : ThumbFields}

theorem thumbInstr_tag (h : thumbInstr t f = some i) : i.tag = t ∧ i.isThumb = true := by
  cases t with
  | T6_LDRPC | T16_BCOND | T17_SWI | T18_B =>
    cases h
    exact ⟨rfl, rfl⟩
  | T19_BL =>
    simp only [thumbInstr] at h
    split at h
    case isTrue =>
      cases h
      exact ⟨rfl, rfl⟩
    case isFalse => split at h <;> cases h <;> exact ⟨rfl, rfl⟩
  | T1_SHIFT | T2_ADDSUB | T3_IMM | T4_ALU | T5_HIREG | T7_LSREG | T8_LSHREG | T9_LSIMM | T10_LSHIMM | T11_LSSP | T12_ADDR
  | T13_ADDSP | T14_PUSHPOP | T15_LSM =>
    simp only [thumbInstr] at h
    split at h <;> cases h <;> exact ⟨rfl, rfl⟩
  | _ => nomatch h

theorem thumbInstr_of_fastClass (ht : t.fastClass = true) : thumbInstr t f ≠ some i := by
  cases t with
  | A_BLXI | A_PLD | A_BLXR | A_CLZ | A_QARITH | A_DSPMUL | A_CP => nofun
  | _ => nomatch ht

/-- Of format 5 BLX is the instruction of FAST. -/
theorem thumbInstr_hireg_fastOnly (h : thumbInstr .T5_HIREG f = some i) (hi : i.fastOnly = true) :
    f.u.extractLsb' 0 2 = 0b11#2 ∧ f.v.getLsbD 1 = true := by
  have hthree : ∀ op : BitVec 2, op.toNat ≠ 0 → op.toNat ≠ 1 → op.toNat ≠ 2 → op = 0b11#2 := by decide
  simp only [thumbInstr] at h
  split at h <;> cases h
  case h_5 hv h0 h1 h2 => exact ⟨hthree _ h0 h1 h2, hv⟩
  all_goals cases hi

/-- Of format 19 the BLX suffix is the instruction of FAST. -/
theorem thumbInstr_bl_fastOnly (h : thumbInstr .T19_BL f = some i) (hi : i.fastOnly = true) :
    f.t.getLsbD 1 = false := by
  simp only [thumbInstr] at h
  split at h
  case isTrue ht => exact ht
  case isFalse => split at h <;> cases h <;> cases hi

theorem fast_of_hireg (h : classifyThumb k f = .T5_HIREG) (hu : f.u.extractLsb' 0 2 = 0b11#2)
    (hv : f.v.getLsbD 1 = true) : k = .fast := by
  revert h
  fun_cases classifyThumb k f
  case case5 => exact fun _ => by assumption
  case case7 h _ => exact absurd ⟨hu, hv⟩ h
  case case9 h _ => exact absurd hu h
  all_goals nofun

/-- The classes of the halfwords with bit 12 clear, other than the BLX suffix. -/
theorem thumbTop_tests : ∀ t : BitVec 5, t.getLsbD 1 = false →
    t.extractLsb' 2 3 = 0b000#3 ∨ t.extractLsb' 2 3 = 0b001#3 ∨ t = 0b01000#5 ∨ t = 0b01001#5
      ∨ t.extractLsb' 2 3 = 0b011#3 ∨ t.extractLsb' 1 4 = 0b1000#4 ∨ t.extractLsb' 1 4 = 0b1010#4
      ∨ t.extractLsb' 1 4 = 0b1100#4 ∨ t = 0b11100#5 ∨ t = 0b11101#5 := by
  decide

theorem fast_of_bl (h : classifyThumb k f = .T19_BL) (ht : f.t.getLsbD 1 = false) : k = .fast := by
  revert h
  fun_cases classifyThumb k f
  case case25 h => exact fun _ => h.1
  case case27 => obtain h | h | h | h | h | h | h | h | h | h := thumbTop_tests f.t ht <;> contradiction
  all_goals nofun

/-- The conditions of format 16: the codes 1110 and 1111 are no branches (30_encoding.md R97). -/
theorem bcond_condition : ∀ (t : BitVec 5) (u : BitVec 3), t.extractLsb' 1 4 = 0b1101#4 →
    ¬(t = 0b11011#5 ∧ u = 0b111#3) → ¬(t = 0b11011#5 ∧ u = 0b110#3) →
    Cond.ofBits (t.extractLsb' 0 1 ++ u) ≠ .al ∧ Cond.ofBits (t.extractLsb' 0 1 ++ u) ≠ .nv := by
  decide

theorem classifyThumb_bcond (h : classifyThumb k f = .T16_BCOND) :
    Cond.ofBits (f.t.extractLsb' 0 1 ++ f.u) ≠ .al ∧ Cond.ofBits (f.t.extractLsb' 0 1 ++ f.u) ≠ .nv := by
  revert h
  fun_cases classifyThumb k f
  case case23 => exact fun _ => bcond_condition f.t f.u ‹_› ‹_› ‹_›
  all_goals nofun

theorem availableOn_of_thumbInstr (h : thumbInstr (classifyThumb k f) f = some i) : i.availableOn k = true := by
  have htag := (thumbInstr_tag h).1
  have hfast : i.fastOnly = true → k = .fast := fun hi => by
    obtain hclass | hclass | hclass | hclass := Instr.tag_of_fastOnly hi <;> rw [htag] at hclass
    · exact absurd h (thumbInstr_of_fastClass hclass)
    · rw [hclass] at h
      cases h
    · rw [hclass] at h
      obtain ⟨hu, hv⟩ := thumbInstr_hireg_fastOnly h hi
      exact fast_of_hireg hclass hu hv
    · rw [hclass] at h
      exact fast_of_bl hclass (thumbInstr_bl_fastOnly h hi)
  exact Instr.availableOn_of_fastOnly hfast

theorem condEncodable_of_thumbInstr (h : thumbInstr (classifyThumb k f) f = some i) : i.condEncodable = true := by
  by_contra hcond
  rw [Bool.not_eq_true] at hcond
  obtain hclass | hclass := Instr.tag_of_not_condEncodable hcond <;>
    rw [(thumbInstr_tag h).1] at hclass <;>
    rw [hclass] at h
  · cases h
  · cases h
    obtain ⟨hal, hnv⟩ := classifyThumb_bcond hclass
    simp [Instr.condEncodable, hal, hnv] at hcond

theorem wf_of_decodeThumbFields (h : decodeThumbFields k f = .ok i) : i.wf k = true ∧ i.isThumb = true := by
  unfold decodeThumbFields at h
  dsimp only at h
  split at h
  · split at h <;> cases h
  · obtain ⟨hi, hu⟩ := finishDecode_ok h
    refine ⟨?_, (thumbInstr_tag hi).2⟩
    simp [Instr.wf, availableOn_of_thumbInstr hi, condEncodable_of_thumbInstr hi, hu]

end

/-- Settles O3: the class test and the reading of the operands leave only what the core has. -/
theorem decodedIsWellFormed : Obligations.DecodedIsWellFormed := by
  unfold Obligations.DecodedIsWellFormed
  intro k thumb w i h
  cases thumb with
  | false => exact wf_of_decodeArmFields h
  | true => exact wf_of_decodeThumbFields h

end Sys2Proof
end

section
/-! CERTIFICATE. The stop with UNRECOGNIZED. -/

namespace Sys2Proof.Machine

/-- The three frames of an instruction: with a condition test, of Thumb, and the two unconditional ARM instructions of
FAST (41_pipeline.md R149, R151). -/
theorem exec_frame (i : Instr) :
    (∃ c w r, i.cond? = some c ∧ ∀ s, exec i s = runCond i c w r s)
      ∨ (i.cond? = none ∧ i.isThumb = true ∧ ∃ w r, ∀ s, exec i s = runAlways i w r s)
      ∨ (i.cond? = none ∧ i.isThumb = false ∧ ∃ r, ∀ s, exec i s = runFastUncond i r s) := by
  cases i with
  | pld | blxImm => exact .inr (.inr ⟨rfl, rfl, _, fun _ => rfl⟩)
  | tLslImm | tLsrImm | tAsrImm | tAddReg | tSubReg | tAddImm3 | tSubImm3 | tMovImm8 | tCmpImm8 | tAddImm8 | tSubImm8
  | tAndAlu | tEorAlu | tLslAlu | tLsrAlu | tAsrAlu | tAdcAlu | tSbcAlu | tRorAlu | tTstAlu | tNegAlu | tCmpAlu | tCmnAlu
  | tOrrAlu | tMulAlu | tBicAlu | tMvnAlu | tAddHi | tCmpHi | tMovHi | tBx | tBlxReg | tLdrPc | tStrReg | tStrbReg
  | tLdrReg | tLdrbReg | tStrhReg | tLdrsbReg | tLdrhReg | tLdrshReg | tStrImm | tLdrImm | tStrbImm | tLdrbImm | tStrhImm
  | tLdrhImm | tStrSp | tLdrSp | tAddPc | tAddSp | tIncSp | tDecSp | tPush | tPop | tStmia | tLdmia | tBCond | tSwi | tB
  | tBlPrefix | tBlSuffix | tBlxSuffix =>
    exact .inr (.inl ⟨rfl, rfl, _, _, fun _ => rfl⟩)
  | _ => exact .inl ⟨_, _, _, rfl, fun _ => rfl⟩

theorem stopped_stopUnrecognized (s : State) :
    Stopped s s.stopUnrecognized ⟨.unrecognized, s.cur.execSlot.word, s.cur.instrAddr⟩ := rfl

/-- An instruction that is not recognized, and is not skipped, stops its core. -/
theorem exec_of_unrecognized {i : Instr} {s : State} (hrec : i.recognizedOn s.turn = false)
    (hpass : i.passes s.cur.cpsr = true) (hframe : s.turn = .fast ∨ i.isThumb = true ∨ i.cond? ≠ none) :
    exec i s = .next s.stopUnrecognized := by
  obtain ⟨c, w, r, hc, hexec⟩ | ⟨-, -, w, r, hexec⟩ | ⟨hc, harm, r, hexec⟩ := exec_frame i <;> rw [hexec]
  · have hcheck : checkCondition c s.cur.cpsr = true := by simpa only [Instr.passes, hc] using hpass
    rw [runCond_of_pass hcheck, runAlways_of_unrecognized hrec]
  · exact runAlways_of_unrecognized hrec
  · have hfast : s.turn = .fast := by simpa [hc, harm] using hframe
    simp only [runFastUncond, hfast]
    exact runAlways_of_unrecognized hrec

/-- SLOW skips the unconditional ARM instructions of FAST. -/
theorem exec_unconditional_slow {i : Instr} {s : State} (hslow : s.turn = .slow) (harm : i.isThumb = false)
    (hcond : i.cond? = none) : exec i s = .next s.skip := by
  obtain ⟨c, w, r, hc, -⟩ | ⟨-, hthumb, -⟩ | ⟨-, -, r, hexec⟩ := exec_frame i
  · cases hcond.symm.trans hc
  · cases harm.symm.trans hthumb
  · rw [hexec]
    simp only [runFastUncond, hslow]

theorem executeSlot_of_error {s : State} {e : DecodeReject}
    (h : decodeWord s.turn (psrT s.cur.cpsr) s.cur.execSlot.word = .error e) : s.executeSlot = s.executeUnrecognized := by
  simp only [State.executeSlot, h]

/-- Settles O36: by the frame that an instruction has, and by the condition test on a word that decodes to nothing. -/
theorem stopsUnrecognized : Obligations.StopsUnrecognized := by
  unfold Obligations.StopsUnrecognized
  intro s
  refine ⟨fun i hrec hpass hframe => ?_, fun i => exec_unconditional_slow, fun e he =>
    ⟨fun hpass => ?_, fun hfail => ?_⟩⟩
  · exact ⟨_, exec_of_unrecognized hrec hpass hframe, stopped_stopUnrecognized s⟩
  · refine ⟨_, ?_, stopped_stopUnrecognized s⟩
    rw [executeSlot_of_error he]
    exact if_pos hpass
  · rw [executeSlot_of_error he]
    exact if_neg (Bool.eq_false_iff.mp hfail)

end Sys2Proof.Machine
end

section
/-! SUPPORT. Data processing: the rule of an instruction is the one of its computation, `Instr.alu?`. -/

namespace Sys2Proof

open Machine

/-- What a computation does to a core: the result goes where `dpWrite` puts it, a compare leaves the flags only. -/
def Alu.rule (x : Alu) : CoreRule := fun k c =>
  let r := x.result c.cpsr
  match x.dest with
  | some rd => dpWrite x.flags rd r.1 r.2 k c
  | none => .done (c.setCpsr k r.2)

/-! ## The rules of the meanings -/

section
variable {c : CoreState} (k : CoreId)

theorem dpAlu_eq_rule (h : psrT c.cpsr = false) (op : DpOp) (s : Bool) (rn rd : Reg) (o : Operand2) :
    dpAlu op s rn rd o k c = (aluArm c op s rn rd o).rule k c := by
  simp only [dpAlu, Alu.rule, Alu.result, aluArm, armReg_eq_reg h, sh_eq_operand2 h]

theorem dpMove_eq_rule (h : psrT c.cpsr = false) (op : DpOp) (s : Bool) (rd : Reg) (o : Operand2) :
    dpMove op s rd o k c = (aluMove c op s rd o).rule k c := by
  simp only [dpMove, Alu.rule, Alu.result, aluMove, sh_eq_operand2 h]

theorem dpTest_eq_rule (h : psrT c.cpsr = false) (op : DpOp) (rn : Reg) (o : Operand2) :
    dpTest op rn o k c = (aluTest c op rn o).rule k c := by
  simp only [dpTest, Alu.rule, Alu.result, aluTest, armReg_eq_reg h, sh_eq_operand2 h]

/-- A write of a low register is never a branch. -/
theorem dpWrite_loReg (rd : LoReg) (res upd : Word) :
    dpWrite true (loReg rd) res upd k c = .done ((c.setReg (loReg rd) res).setCpsr k upd) :=
  if_pos (loReg_ne_r15 rd)

theorem thumbDpRule_eq_rule (op : DpOp) (rd : LoReg) (a b : CoreState → Word) :
    thumbDpRule op rd a b k c = (aluThumb op (a c) (b c) rd).rule k c :=
  (dpWrite_loReg k rd _ _).symm

theorem thumbShiftRule_eq_rule (ty : ShiftType) (imm5 : BitVec 5) (rs rd : LoReg) :
    thumbShiftRule ty imm5 rs rd k c = (aluThumbShift (shiftOp ty (c.low rs) imm5.toNat c.carry) rd).rule k c :=
  (dpWrite_loReg k rd _ _).symm

theorem lowAmount_eq (c : CoreState) (r : LoReg) : ((lo r c).extractLsb' 0 8).toNat = c.lowAmount r := by
  rw [BitVec.extractLsb'_toNat]
  rfl

theorem thumbShiftRegRule_eq_rule (ty : ShiftType) (rs rd : LoReg) :
    thumbShiftRegRule ty rs rd k c = (aluThumbShift (shiftReg ty (c.low rd) (c.lowAmount rs) c.carry) rd).rule k c := by
  rw [thumbShiftRegRule, lowAmount_eq]
  exact (dpWrite_loReg k rd _ _).symm

end

/-! ## The instructions -/

/-- Each instruction with a computation that runs performs the rule of its computation. -/
theorem exec_alu {i : Instr} {s : State} {x : Alu} (hx : i.alu? s.cur = some x) (h : Runs i s) :
    ∃ f : CoreRule, exec i s = .next (s.perform .load (onCore f)) ∧ f s.turn s.cur = x.rule s.turn s.cur := by
  have ⟨hstate, _⟩ := h
  cases i with
  | andShiftImm | andShiftReg | andImm | eorShiftImm | eorShiftReg | eorImm | subShiftImm | subShiftReg | subImm
  | rsbShiftImm | rsbShiftReg | rsbImm | addShiftImm | addShiftReg | addImm | adcShiftImm | adcShiftReg | adcImm
  | sbcShiftImm | sbcShiftReg | sbcImm | rscShiftImm | rscShiftReg | rscImm | orrShiftImm | orrShiftReg | orrImm
  | bicShiftImm | bicShiftReg | bicImm =>
    cases hx
    exact ⟨_, runCond_of_runs h rfl, dpAlu_eq_rule _ hstate.symm _ _ _ _ _⟩
  | movShiftImm | movShiftReg | movImm | mvnShiftImm | mvnShiftReg | mvnImm =>
    cases hx
    exact ⟨_, runCond_of_runs h rfl, dpMove_eq_rule _ hstate.symm _ _ _ _⟩
  | tstShiftImm | tstShiftReg | tstImm | teqShiftImm | teqShiftReg | teqImm | cmpShiftImm | cmpShiftReg | cmpImm
  | cmnShiftImm | cmnShiftReg | cmnImm =>
    cases hx
    exact ⟨_, runCond_of_runs h rfl, dpTest_eq_rule _ hstate.symm _ _ _⟩
  | tLslImm | tLsrImm | tAsrImm =>
    cases hx
    exact ⟨_, runAlways_of_runs h, thumbShiftRule_eq_rule _ _ _ _ _⟩
  | tLslAlu | tLsrAlu | tAsrAlu | tRorAlu =>
    cases hx
    exact ⟨_, runAlways_of_runs h, thumbShiftRegRule_eq_rule _ _ _ _⟩
  | tAddReg | tSubReg | tAddImm3 | tSubImm3 | tMovImm8 | tAddImm8 | tSubImm8 | tAndAlu | tEorAlu | tAdcAlu | tSbcAlu
  | tNegAlu | tOrrAlu | tBicAlu | tMvnAlu =>
    cases hx
    exact ⟨_, runAlways_of_runs h, thumbDpRule_eq_rule _ _ _ _ _⟩
  | tCmpImm8 | tTstAlu | tCmpAlu | tCmnAlu | tCmpHi =>
    cases hx
    exact ⟨_, runAlways_of_runs h, rfl⟩
  | _ => nomatch hx

/-- A computation with a destination other than r15 writes it, and the flags if it says so. -/
theorem Alu.rule_of_dest {x : Alu} {rd : Reg} (hdest : x.dest = some rd) (hrd : rd ≠ .r15) (k : CoreId)
    (c : CoreState) : x.rule k c = .done (c.updated (c.regs.set (phys rd c.mode) (x.result c.cpsr).1)
      (if x.flags then (x.result c.cpsr).2 &&& psrMask k else c.cpsr) c.needsFlush) := by
  simp only [Alu.rule, hdest, dpWrite, ne_eq, hrd, not_false_eq_true, if_true]
  rw [CoreState.setReg_regs_of_ne _ _ hrd]
  cases x.flags <;> rfl

/-- Settles O37: the rule of the instruction is the one of its computation, which updates one register and the flags. -/
theorem aluWritesItsResult : Obligations.AluWritesItsResult := by
  unfold Obligations.AluWritesItsResult
  intro i s x rd hx hdest hrd h
  obtain ⟨f, hexec, hrule⟩ := exec_alu hx h
  rw [Alu.rule_of_dest hdest hrd] at hrule
  obtain ⟨-, -, -, hstaged⟩ := h
  obtain ⟨hframe, hacc, hflush, hregs, hcpsr⟩ := State.perform_updated (w := .load) (onCore_done hrule) hstaged
  refine ⟨_, hexec, hframe, hacc, hflush, ?_, fun p hp => ?_, hcpsr⟩
  · rw [hregs]
    exact RegFile.get_set_self _ _ _
  · rw [hregs]
    exact RegFile.get_set_ne _ _ hp

end Sys2Proof
end

section
/-! SUPPORT. The flag updates as a whole: the four flags they leave, and that every other bit stays. -/

namespace Sys2Proof.Machine

/-- The bits a flag update keeps: the status word below the four flags (40_alu_shifter.md R126, R127). -/
def SameBelowFlags (p q : Word) : Prop := p &&& 0x0FFFFFFF#32 = q &&& 0x0FFFFFFF#32

theorem sameBelowFlags_putBit (p : Word) {i : Nat} (hi : 28 ≤ i) (b : Bool) : SameBelowFlags (putBit p i b) p := by
  apply BitVec.eq_of_getLsbD_eq
  intro j hj
  rw [BitVec.getLsbD_and, BitVec.getLsbD_and, getLsbD_putBit]
  by_cases hji : j = i
  · have hmask : ∀ j < 32, 28 ≤ j → (0x0FFFFFFF#32).getLsbD j = false := by decide
    rw [hmask j hj (by omega), Bool.and_false, Bool.and_false]
  · rw [if_neg fun h => hji h.1]

theorem SameBelowFlags.trans {p q r : Word} (hpq : SameBelowFlags p q) (hqr : SameBelowFlags q r) :
    SameBelowFlags p r := Eq.trans hpq hqr

theorem sameBelowFlags_psrSetNZ (p : Word) (n z : Bool) : SameBelowFlags (psrSetNZ p n z) p :=
  (sameBelowFlags_putBit _ (by decide) z).trans (sameBelowFlags_putBit p (by decide) n)

theorem sameBelowFlags_psrSetC (p : Word) (b : Bool) : SameBelowFlags (psrSetC p b) p :=
  sameBelowFlags_putBit p (by decide) b

theorem sameBelowFlags_psrSetNZCV (p : Word) (n z c v : Bool) : SameBelowFlags (psrSetNZCV p n z c v) p :=
  (sameBelowFlags_putBit _ (by decide) v).trans
    ((sameBelowFlags_psrSetC _ c).trans (sameBelowFlags_psrSetNZ p n z))

@[simp] theorem psrN_psrSetNZCV (p : Word) (n z c v : Bool) : psrN (psrSetNZCV p n z c v) = n := by
  simp [psrSetNZCV, psrSetV, psrSetC, psrSetNZ, psrN]

@[simp] theorem psrZ_psrSetNZCV (p : Word) (n z c v : Bool) : psrZ (psrSetNZCV p n z c v) = z := by
  simp [psrSetNZCV, psrSetV, psrSetC, psrSetNZ, psrZ]

@[simp] theorem psrC_psrSetNZCV (p : Word) (n z c v : Bool) : psrC (psrSetNZCV p n z c v) = c := by
  simp [psrSetNZCV, psrSetV, psrSetC, psrSetNZ, psrC]

@[simp] theorem psrV_psrSetNZCV (p : Word) (n z c v : Bool) : psrV (psrSetNZCV p n z c v) = v := by
  simp [psrSetNZCV, psrSetV, psrSetC, psrSetNZ, psrV]

/-- N and Z from the result, C from the carry-out if there is one, V as it was (40_alu_shifter.md R126). -/
theorem updateLogical_flags (p res : Word) (co : Option Bool) :
    psrN (updateLogical p res co) = res.getLsbD 31 ∧ psrZ (updateLogical p res co) = (res == 0#32)
      ∧ psrC (updateLogical p res co) = co.getD (psrC p) ∧ psrV (updateLogical p res co) = psrV p := by
  cases co <;> simp [updateLogical, psrSetC, psrSetNZ, psrN, psrZ, psrC, psrV]

theorem sameBelowFlags_updateLogical (p res : Word) (co : Option Bool) :
    SameBelowFlags (updateLogical p res co) p := by
  cases co with
  | none => exact sameBelowFlags_psrSetNZ p _ _
  | some b => exact (sameBelowFlags_psrSetC _ b).trans (sameBelowFlags_psrSetNZ p _ _)

end Sys2Proof.Machine
end

section
/-! CERTIFICATE. The logical operations and the condition test: the results, the sixteen fields, and the instruction
whose test fails. -/

namespace Sys2Proof.Machine

/-- Settles O30: the flags of the logical update, bit by bit; the eight results hold by definition. -/
theorem logicalOperations : Obligations.LogicalOperations := by
  unfold Obligations.LogicalOperations
  refine ⟨fun p res co => ?_, fun p a sh co => ⟨rfl, rfl, rfl, rfl, rfl, rfl, rfl, rfl⟩⟩
  obtain ⟨hn, hz, hc, hv⟩ := updateLogical_flags p res co
  exact ⟨hn, by rw [hz, beq_iff_eq], hc, hv, sameBelowFlags_updateLogical p res co⟩

/-- Settles O29: each field is one Boolean test of the flags, read as a proposition. -/
theorem conditionTable : Obligations.ConditionTable := by
  unfold Obligations.ConditionTable
  intro p
  refine ⟨.rfl, ?ne, .rfl, ?cc, .rfl, ?pl, .rfl, ?vc, ?hi, ?ls, beq_iff_eq, bne_iff_ne, ?gt, ?le, rfl,
    Bool.false_ne_true⟩
  case ne | cc | pl | vc => exact Bool.not_iff_not
  case hi | ls | gt | le => simp [checkCondition, psrN, psrZ, psrC, psrV]

/-- Settles O35: an instruction with a condition field meets the condition test first, and a failed test is the skip. -/
theorem conditionFailedSkips : Obligations.ConditionFailedSkips := by
  unfold Obligations.ConditionFailedSkips
  intro i c s hcond hfail
  obtain ⟨c', w, r, hc', hexec⟩ | ⟨hnone, -⟩ | ⟨hnone, -⟩ := exec_frame i
  · obtain rfl : c' = c := Option.some.inj (hc'.symm.trans hcond)
    rw [hexec, runCond_of_fail hfail]
    rfl
  · cases hnone.symm.trans hcond
  · cases hnone.symm.trans hcond

end Sys2Proof.Machine
end

section
/-! CERTIFICATE. Addition and subtraction against the exact integers. A subtraction is the addition of the complement
with the carry for the borrow, so the overflow is reasoned about once. -/

namespace Sys2Proof.Machine

/-! ## The value and the overflow -/

/-- V of an addition: the exact signed sum is outside a word (40_alu_shifter.md R127, R129). -/
theorem addOverflow_iff (a b : Word) (cin : Bool) :
    addOverflow a b (addWithCarry a b cin) = true ↔ ¬InWord (a.toInt + b.toInt + cin.toNat) := by
  have hcin : cin.toNat ≤ 1 := cin.toNat_le
  have hsum : (addWithCarry a b cin).toNat = (a.toNat + b.toNat + cin.toNat) % 2 ^ 32 := BitVec.toNat_ofNat _ _
  have hsign (w : Word) : w.getLsbD 31 = decide (2 ^ 31 ≤ w.toNat) := BitVec.getLsbD_last w
  simp only [addOverflow, InWord, hsign, hsum, BitVec.toInt_eq_toNat_cond, Bool.and_eq_true, beq_iff_eq, bne_iff_ne,
    ne_eq, decide_eq_decide]
  omega

theorem subWithCarry_eq_addWithCarry (m n : Word) (cin : Bool) :
    subWithCarry m n cin = addWithCarry m (~~~n) cin := by
  apply BitVec.eq_of_toNat_eq
  have hcin : cin.toNat ≤ 1 := cin.toNat_le
  rw [subWithCarry, addWithCarry, BitVec.toNat_ofInt, BitVec.toNat_ofNat, BitVec.toNat_not]
  omega

theorem subOverflow_eq_addOverflow (m n res : Word) : subOverflow m n res = addOverflow m (~~~n) res := by
  simp only [subOverflow, addOverflow, BitVec.getLsbD_not]
  cases m.getLsbD 31 <;> cases n.getLsbD 31 <;> simp

/-- The complement as an integer. -/
theorem toInt_complement (n : Word) : (~~~n).toInt = -n.toInt - 1 := by
  rw [BitVec.toInt_eq_toNat_cond, BitVec.toInt_eq_toNat_cond, BitVec.toNat_not]
  omega

/-- V of a subtraction: the exact signed difference is outside a word (40_alu_shifter.md R127, R129). -/
theorem subOverflow_iff (m n : Word) (borrow : Bool) :
    subOverflow m n (subWithCarry m n !borrow) = true ↔ ¬InWord (m.toInt - n.toInt - borrow.toNat) := by
  have hval : m.toInt + (~~~n).toInt + (!borrow).toNat = m.toInt - n.toInt - borrow.toNat := by
    rw [toInt_complement]
    cases borrow <;> simp <;> omega
  rw [subOverflow_eq_addOverflow, subWithCarry_eq_addWithCarry, addOverflow_iff, hval]

/-! ## The operations -/

/-- The operation adds with this carry in (42_arm_dataproc.md R179, R180, R186). -/
def AddsWith (op : DpOp) (cpsr : Word) (cin : Bool) : Prop :=
  ((op = .add ∨ op = .cmn) ∧ cin = false) ∨ (op = .adc ∧ cin = psrC cpsr)

/-- The operation on `a` and `b` subtracts `n` and this borrow from `m` (42_arm_dataproc.md R177, R178, R181, R182,
R185). -/
def SubtractsWith (op : DpOp) (cpsr a b m n : Word) (borrow : Bool) : Prop :=
  ((op = .sub ∨ op = .cmp) ∧ m = a ∧ n = b ∧ borrow = false) ∨ (op = .rsb ∧ m = b ∧ n = a ∧ borrow = false)
    ∨ (op = .sbc ∧ m = a ∧ n = b ∧ borrow = !psrC cpsr) ∨ (op = .rsc ∧ m = b ∧ n = a ∧ borrow = !psrC cpsr)

/-- The additions are the one with a carry. -/
theorem dpCompute_addition {op : DpOp} {cpsr : Word} {cin : Bool} (h : AddsWith op cpsr cin) (a b : Word)
    (co : Option Bool) :
    dpCompute op cpsr a b co = (addWithCarry a b cin, addCarryFlags cpsr a b cin) := by
  have hres : a + b = addWithCarry a b false := by simp [addWithCarry, BitVec.ofNat_add]
  have hflags : updateArith cpsr a b (a + b) true = addCarryFlags cpsr a b false := by
    have hcarry : b.toNat > 0xFFFFFFFF - a.toNat ↔ a.toNat + b.toNat + false.toNat ≥ 2 ^ 32 := by
      rw [Bool.toNat_false]
      omega
    simp only [updateArith, if_true, addCarryFlags, hres, hcarry]
  obtain ⟨rfl | rfl, rfl⟩ | ⟨rfl, rfl⟩ := h
  · exact Prod.ext hres hflags
  · exact Prod.ext hres hflags
  · rfl

/-- A plain subtraction is the one without a borrow. -/
theorem sub_eq_subWithCarry (m n : Word) : m - n = subWithCarry m n true := by
  simp [subWithCarry, ofInt_sub]

theorem updateArith_sub (cpsr m n : Word) : updateArith cpsr m n (m - n) false = subCarryFlags cpsr m n true := by
  simp [updateArith, subCarryFlags, sub_eq_subWithCarry]

/-- The subtractions are the one with a carry, which is the absence of a borrow. -/
theorem dpCompute_subtraction {op : DpOp} {cpsr a b m n : Word} {borrow : Bool}
    (h : SubtractsWith op cpsr a b m n borrow) (co : Option Bool) :
    dpCompute op cpsr a b co = (subWithCarry m n !borrow, subCarryFlags cpsr m n !borrow) := by
  obtain ⟨rfl | rfl, rfl, rfl, rfl⟩ | ⟨rfl, rfl, rfl, rfl⟩ | ⟨rfl, rfl, rfl, rfl⟩ | ⟨rfl, rfl, rfl, rfl⟩ := h
  case inl.inl | inl.inr | inr.inl => exact Prod.ext (sub_eq_subWithCarry m n) (updateArith_sub cpsr m n)
  case inr.inr.inl | inr.inr.inr => simp only [dpCompute, Bool.not_not]

/-- Settles O31: the additions are the addition with a carry, whose V is that of the exact signed sum. -/
theorem additionExact : Obligations.AdditionExact := by
  unfold Obligations.AdditionExact
  intro cpsr a b co op cin h
  rw [dpCompute_addition h]
  refine ⟨rfl, psrN_psrSetNZCV _ _ _ _ _, ?z, ?c, ?v, sameBelowFlags_psrSetNZCV _ _ _ _ _⟩
  case z => simp [addCarryFlags]
  case c => simp [addCarryFlags]
  case v => simpa only [addCarryFlags, psrV_psrSetNZCV] using addOverflow_iff a b cin

/-- Settles O32: the subtractions are the subtraction with a carry, whose V is that of the exact signed difference. -/
theorem subtractionExact : Obligations.SubtractionExact := by
  unfold Obligations.SubtractionExact
  intro cpsr a b m n co op borrow h
  have hnot : 1 - (!borrow).toNat = borrow.toNat := by cases borrow <;> rfl
  rw [dpCompute_subtraction h]
  refine ⟨?res, psrN_psrSetNZCV _ _ _ _ _, ?z, ?c, ?v, sameBelowFlags_psrSetNZCV _ _ _ _ _⟩
  case res => cases borrow <;> rfl
  case z => simp [subCarryFlags]
  case c => simp [subCarryFlags, hnot]
  case v => simpa only [subCarryFlags, psrV_psrSetNZCV] using subOverflow_iff m n borrow

end Sys2Proof.Machine
end

section
/-! CERTIFICATE. The four shift operators bit by bit (40_alu_shifter.md R121 to R125). -/

namespace Sys2Proof.Machine

/-- The distance that LSR and ASR shift by: an amount of 0 stands for 32 (40_alu_shifter.md R122, R123). -/
def shiftDistance (s : Nat) : Nat := if s = 0 then 32 else s

theorem shiftDistance_of_ne {s : Nat} (h : s ≠ 0) : shiftDistance s = s := if_neg h

section
variable (v : Word) (s : Nat)

/-! ### LSL -/

theorem shiftLsl_value : (shiftLsl v s).1 = v <<< s := by
  unfold shiftLsl
  split_ifs with h0 h31
  · rw [h0, BitVec.shiftLeft_zero]
  · rfl
  · exact (BitVec.shiftLeft_eq_zero (by omega)).symm

theorem getLsbD_shiftLsl {i : Nat} (hi : i < 32) :
    (shiftLsl v s).1.getLsbD i = (decide (s ≤ i) && v.getLsbD (i - s)) := by
  rw [shiftLsl_value, BitVec.getLsbD_shiftLeft]
  simp only [hi, decide_true, Bool.true_and, ← decide_not, Nat.not_lt]

theorem shiftLsl_carry :
    (shiftLsl v s).2 = if s = 0 then none else if s < 32 then some (v.getLsbD (32 - s)) else some false := by
  simp only [shiftLsl, Nat.lt_succ_iff]
  split_ifs <;> rfl

/-! ### LSR: one shift by the distance -/

theorem shiftLsr_eq : shiftLsr v s = (v >>> shiftDistance s, some (v.getLsbD (shiftDistance s - 1))) := by
  unfold shiftLsr
  split_ifs with h32 h31
  · have hdist : shiftDistance s = 32 := by obtain rfl | rfl := h32 <;> rfl
    rw [hdist, BitVec.ushiftRight_eq_zero (le_refl 32)]
  · rw [shiftDistance_of_ne (by omega)]
  · rw [shiftDistance_of_ne (by omega), BitVec.ushiftRight_eq_zero (by omega), BitVec.getLsbD_of_ge v _ (by omega)]

/-! ### ASR: one shift by the distance, the sign bit beyond bit 31 -/

theorem getLsbD_sshiftRight_min (n : Nat) {i : Nat} (hi : i < 32) :
    (v.sshiftRight n).getLsbD i = v.getLsbD (min 31 (i + n)) := by
  rw [BitVec.getLsbD_sshiftRight, BitVec.msb_eq_getLsbD_last]
  by_cases hin : n + i < 32
  · rw [if_pos hin, Nat.min_eq_right (by omega), Nat.add_comm]
    simp [hi]
  · rw [if_neg hin, Nat.min_eq_left (by omega)]
    simp [hi]

/-- An arithmetic shift by 32 or more leaves copies of the sign bit. -/
theorem sshiftRight_of_ge {n : Nat} (hn : 32 ≤ n) :
    v.sshiftRight n = if v.getLsbD 31 then 0xFFFFFFFF#32 else 0#32 := by
  apply BitVec.eq_of_getLsbD_eq
  intro i hi
  rw [getLsbD_sshiftRight_min v n hi, Nat.min_eq_left (by omega)]
  cases v.getLsbD 31 with
  | false => exact BitVec.getLsbD_zero.symm
  | true => exact ((by decide : ∀ i < 32, (0xFFFFFFFF#32).getLsbD i = true) i hi).symm

theorem shiftAsr_eq :
    shiftAsr v s = (v.sshiftRight (shiftDistance s), some (v.getLsbD (min 31 (shiftDistance s - 1)))) := by
  unfold shiftAsr
  split
  · next h =>
    have hdist : 32 ≤ shiftDistance s := by
      obtain rfl | h := h
      · exact le_refl 32
      · rwa [shiftDistance_of_ne (by omega)]
    rw [sshiftRight_of_ge v hdist, Nat.min_eq_left (by omega)]
  · rw [shiftDistance_of_ne (by omega), Nat.min_eq_right (by omega)]

/-! ### ROR, with RRX at amount 0 -/

theorem getLsbD_rrx (cin : Bool) {i : Nat} (hi : i < 32) :
    (shiftRor v 0 cin).1.getLsbD i = if i = 31 then cin else v.getLsbD (i + 1) := by
  have htop : ∀ i < 32, (0x80000000#32).getLsbD i = decide (i = 31) := by decide
  have hcarry : (if cin then 0x80000000#32 else 0#32).getLsbD i = (cin && decide (i = 31)) := by
    cases cin with
    | false => exact BitVec.getLsbD_zero
    | true => exact htop i hi
  rw [shiftRor, if_pos rfl, BitVec.getLsbD_or, hcarry, BitVec.getLsbD_ushiftRight, Nat.add_comm]
  by_cases h31 : i = 31
  · simp [h31]
  · simp [h31]

theorem getLsbD_rotateRight_mod {i : Nat} (hi : i < 32) :
    (v.rotateRight (s % 32)).getLsbD i = v.getLsbD ((i + s) % 32) := by
  rw [BitVec.getLsbD_rotateRight, Nat.mod_mod]
  by_cases hwrap : i < 32 - s % 32
  · have hidx : (i + s) % 32 = s % 32 + i := by omega
    simp [hwrap, hidx]
  · have hidx : (i + s) % 32 = i - (32 - s % 32) := by omega
    simp [hwrap, hidx, hi]

theorem getLsbD_shiftRor (cin : Bool) {i : Nat} (hi : i < 32) :
    (shiftRor v s cin).1.getLsbD i =
      if s = 0 then (if i = 31 then cin else v.getLsbD (i + 1)) else v.getLsbD ((i + s) % 32) := by
  split
  · next h0 => rw [h0, getLsbD_rrx v cin hi]
  · next h0 =>
    rw [shiftRor, if_neg h0]
    exact getLsbD_rotateRight_mod v s hi

theorem shiftRor_carry (cin : Bool) :
    (shiftRor v s cin).2 = some (if s = 0 then v.getLsbD 0 else v.getLsbD ((s - 1) % 32)) := by
  unfold shiftRor
  split <;> rfl

end

/-- Settles O33: each operator is one shift or rotation of the word; the bypass of a register amount of 0
holds by definition. -/
theorem shifterBits : Obligations.ShifterBits := by
  unfold Obligations.ShifterBits
  intro v s cin
  refine ⟨fun i hi => getLsbD_shiftLsl v s hi, shiftLsl_carry v s, fun i hi => ?lsr, ?lsrCarry, fun i hi => ?asr,
    ?asrCarry, fun i hi => getLsbD_shiftRor v s cin hi, shiftRor_carry v s cin, fun _ => rfl⟩
  case lsr => rw [shiftOp, shiftLsr_eq, BitVec.getLsbD_ushiftRight, Nat.add_comm, shiftDistance]
  case lsrCarry => rw [shiftOp, shiftLsr_eq, shiftDistance]
  case asr => rw [shiftOp, shiftAsr_eq, getLsbD_sshiftRight_min v _ hi, shiftDistance]
  case asrCarry => rw [shiftOp, shiftAsr_eq, shiftDistance]

end Sys2Proof.Machine
end

section
/-! SUPPORT. What the execution of an instruction leaves of the pipeline: the words and the tags of the slots stay, only
the executing slot stages registers, and a change of state requests a flush (41_pipeline.md R153 to R159). -/

namespace Sys2Proof.Machine

/-! ## Elementary operations -/

/-- The pipeline of `d` is that of `c` after a part of an instruction: the pointer, the words and the tags of the slots
are the same, nothing but the executing slot has other staged registers, a flush stays requested, and a change of the
instruction set requests one (41_pipeline.md R153, R158). -/
structure CoreState.Executed (c d : CoreState) : Prop where
  ptr : d.ptr = c.ptr
  running : d.running = c.running
  slots : ∀ j, (d.slot j).word = (c.slot j).word ∧ (d.slot j).tag = (c.slot j).tag
  rmask : ∀ j, j ≠ c.execIdx → (d.slot j).rmask = (c.slot j).rmask
  flush : c.needsFlush = true → d.needsFlush = true
  thumb : psrT d.cpsr = psrT c.cpsr ∨ d.needsFlush = true

namespace CoreState.Executed

theorem refl (c : CoreState) : c.Executed c :=
  ⟨rfl, rfl, fun _ => ⟨rfl, rfl⟩, fun _ _ => rfl, id, .inl rfl⟩

theorem trans {b c d : CoreState} (hbc : b.Executed c) (hcd : c.Executed d) : b.Executed d where
  ptr := hcd.ptr.trans hbc.ptr
  running := hcd.running.trans hbc.running
  slots j := ⟨(hcd.slots j).1.trans (hbc.slots j).1, (hcd.slots j).2.trans (hbc.slots j).2⟩
  rmask j hj := (hcd.rmask j (by rwa [execIdx, hbc.ptr])).trans (hbc.rmask j hj)
  flush := hcd.flush ∘ hbc.flush
  thumb := hcd.thumb.elim (fun ht => hbc.thumb.imp ht.trans hcd.flush) .inr

end CoreState.Executed

/-- The slot at an index depends on the three slots only. -/
theorem CoreState.slot_congr {c d : CoreState} (h0 : d.slot0 = c.slot0) (h1 : d.slot1 = c.slot1)
    (h2 : d.slot2 = c.slot2) (j : Fin 3) : d.slot j = c.slot j := by
  simp only [CoreState.slot, h0, h1, h2]

namespace CoreState.Executed

/-- An operation that leaves the slots alone. -/
theorem of_sameSlots {c d : CoreState} (hptr : d.ptr = c.ptr) (hrunning : d.running = c.running)
    (h0 : d.slot0 = c.slot0) (h1 : d.slot1 = c.slot1) (h2 : d.slot2 = c.slot2)
    (hflush : c.needsFlush = true → d.needsFlush = true)
    (hthumb : psrT d.cpsr = psrT c.cpsr ∨ d.needsFlush = true) : c.Executed d := by
  have hslot := slot_congr h0 h1 h2
  exact ⟨hptr, hrunning, fun j => by simp only [hslot, and_self], fun j _ => by rw [hslot], hflush, hthumb⟩

theorem setReg (c : CoreState) (i : Reg) (v : Word) : c.Executed (c.setReg i v) := by
  refine of_sameSlots (by simp) (by simp) (by simp) (by simp) (by simp) (fun h => ?_) (.inl (by simp))
  unfold CoreState.setReg
  split
  · rfl
  · exact h

/-- A write of cpsr that keeps T. -/
theorem setCpsr (c : CoreState) (k : CoreId) {p : Word} (h : psrT p = psrT c.cpsr) : c.Executed (c.setCpsr k p) :=
  of_sameSlots rfl rfl rfl rfl rfl id (.inl (by rw [setCpsr_cpsr, psrT_mask, h]))

/-- A write of cpsr with a branch: the flush of the branch empties the slots whatever T becomes. -/
theorem exchange (c : CoreState) (k : CoreId) (p v : Word) : c.Executed ((c.setCpsr k p).writePc v) :=
  of_sameSlots rfl rfl rfl rfl rfl (fun _ => rfl) (.inr rfl)

theorem setSpsr (c : CoreState) (k : CoreId) (v : Word) : c.Executed (c.setSpsr k v) :=
  of_sameSlots (by simp) (by simp) (by simp) (by simp) (by simp) (by simp) (.inl (by simp))

theorem enterException (c : CoreState) (k : CoreId) (vb : Word) (m : Mode) (o lr : Word) (f : Bool) :
    c.Executed (c.enterException k vb m o lr f) :=
  of_sameSlots (by simp) (by simp) (by simp) (by simp) (by simp) (fun _ => rfl) (.inr rfl)

theorem withRegs (c : CoreState) (f : RegFile) : c.Executed { c with regs := f } :=
  of_sameSlots rfl rfl rfl rfl rfl id (.inl rfl)

theorem charge (c : CoreState) (n : Nat) : c.Executed (c.charge n) := of_sameSlots rfl rfl rfl rfl rfl id (.inl rfl)

/-- Other scratch lists in the executing slot. -/
theorem setExecSlot (c : CoreState) {sl : Slot} (hword : sl.word = c.execSlot.word) (htag : sl.tag = c.execSlot.tag) :
    c.Executed (c.setExecSlot sl) where
  ptr := by simp
  running := by simp
  slots := (c.scratchOnly_setExecSlot hword htag).2
  rmask j hj := by rw [CoreState.setExecSlot, slot_setSlot_ne c sl hj]
  flush h := by simpa using h
  thumb := .inl (by simp)

theorem stage (c : CoreState) (i : Reg) (p : PhysReg) (addr v : Word) : c.Executed (c.stage i p addr v) :=
  setExecSlot c rfl rfl

theorem recordAddr (c : CoreState) (i : Reg) (addr : Word) : c.Executed (c.recordAddr i addr) := setExecSlot c rfl rfl

theorem accessMem (c : CoreState) : c.Executed c.accessMem := setExecSlot c rfl rfl

theorem clearStaged (c : CoreState) : c.Executed c.clearStaged := setExecSlot c rfl rfl

/-- A register write, then, if `s`, a write of flags. -/
theorem setReg_flags (s : Bool) (k : CoreId) (c : CoreState) (rd : Reg) (v : Word) {p : Word}
    (h : SameControl p c.cpsr) : c.Executed (if s then (c.setReg rd v).setCpsr k p else c.setReg rd v) := by
  cases s with
  | false => exact setReg c rd v
  | true => exact (setReg c rd v).trans (setCpsr _ k (by rw [setReg_cpsr, h.psrT]))

/-- The commit of a loaded r15. -/
theorem loadPc (c : CoreState) (k : CoreId) (v : Word) : c.Executed (c.loadPc k v) := by
  cases k with
  | fast => exact exchange c .fast _ v
  | slow => exact setReg c .r15 v

end CoreState.Executed

/-! ## Rules -/

/-- A rule either completes in a state that `R` relates to the one it started from, or stops and changes nothing. -/
inductive Result.Within {σ : Type} (R : σ → σ → Prop) (s : σ) : Result σ → Prop where
  | done {t : σ} (h : R s t) : Within R s (.done t)
  | stop (d : Diag) : Within R s (.stop d s)

/-- Whatever core and state a core rule starts from, it completes an execution or stops with nothing changed. -/
def CoreRule.Executes (f : CoreRule) : Prop := ∀ k c, Result.Within CoreState.Executed c (f k c)

theorem within_exceptionReturn (c : CoreState) (k : CoreId) (a v : Word) :
    Result.Within CoreState.Executed c (c.exceptionReturn k a v) := by
  obtain ⟨-, heq⟩ | ⟨-, heq⟩ := c.exceptionReturn_cases k a v
  · rw [heq]
    exact .done (.exchange c k _ v)
  · rw [heq]
    exact .stop _

/-- The end of data processing that writes Rd. -/
theorem within_dpWrite (s : Bool) (rd : Reg) (k : CoreId) (c : CoreState) (res : Word) {upd : Word}
    (h : SameControl upd c.cpsr) : Result.Within CoreState.Executed c (dpWrite s rd res upd k c) := by
  unfold dpWrite
  split
  · exact .done (.setReg_flags s k c rd res h)
  · split
    · exact within_exceptionReturn c k _ res
    · exact .done (.setReg c .r15 res)

theorem msrRule_executes (spsr : Bool) (fields : BitVec 4) (operand : CoreState → Word) :
    CoreRule.Executes (msrRule spsr fields operand) := by
  intro k c
  have hcpsr := CoreState.Executed.setCpsr c k (p := msrValue k c.cpsr fields (operand c))
    (by rw [msrValue, psrT_psrSetT])
  unfold msrRule
  split
  · exact .done (.setSpsr c k _)
  · unfold msrCpsr
    dsimp only
    split
    · split
      · exact .done hcpsr
      · exact .done (hcpsr.trans (.setReg _ .r15 _))
    · exact .stop _

theorem mulWrite_executes (s : Bool) (rd : Reg) (res : CoreState → Word) (cfg : Config) :
    CoreRule.Executes fun k c => mulWrite s rd (res c) cfg k c :=
  fun k c => .done (.setReg_flags s k c rd _ (sameControl_mulPsr cfg k c _ _))

theorem mullWrite_executes (s : Bool) (hi lo : Reg) (p : CoreState → BitVec 64) (cfg : Config) :
    CoreRule.Executes fun k c => mullWrite s hi lo (p c) cfg k c := by
  intro k c
  refine .done ((CoreState.Executed.setReg c lo _).trans (.setReg_flags s k _ hi _ ?_))
  rw [CoreState.setReg_cpsr]
  exact sameControl_mulPsr cfg k c _ _

theorem within_writeSticky (rd : Reg) (res : Word) (q : Bool) (k : CoreId) (c : CoreState) :
    Result.Within CoreState.Executed c (writeSticky rd res q k c) := by
  simp only [writeSticky, CoreState.setReg_cpsr]
  exact .done (.setReg_flags q k c rd res ((SameControl.refl _).putBit (by decide) true))

theorem thumbCondRule_executes (cond : Cond) (off : Word) : CoreRule.Executes (thumbCondRule cond off) := by
  intro k c
  unfold thumbCondRule
  split
  · exact .done (.setReg c .r15 _)
  · exact .done (.refl c)

/-- An execution on the core that holds the turn. -/
def State.Executed (s t : State) : Prop := s.cur.Executed t.cur

/-- Whatever core and state a rule starts from, it completes an execution or stops with nothing changed. -/
def Rule.Executes (r : Rule) : Prop := ∀ k s, Result.Within State.Executed s (r k s)

theorem onCore_executes {f : CoreRule} (h : f.Executes) : Rule.Executes (onCore f) := by
  intro k s
  have hf := h k s.cur
  cases hd : f k s.cur with
  | done c =>
    rw [hd] at hf
    rw [onCore_done hd]
    obtain ⟨hc⟩ := hf
    refine .done ?_
    rwa [State.Executed, State.setCur_cur]
  | stop e c =>
    rw [hd] at hf
    rw [onCore_stop hd]
    cases hf
    rw [State.setCur_self]
    exact .stop e

theorem onCoreCfg_executes {f : Config → CoreRule} (h : ∀ cfg, (f cfg).Executes) : Rule.Executes (onCoreCfg f) :=
  fun k s => onCore_executes (h s.cfg) k s

namespace State.Executed

theorem refl (s : State) : s.Executed s := CoreState.Executed.refl _

theorem trans {s t u : State} (hst : s.Executed t) (htu : t.Executed u) : s.Executed u :=
  CoreState.Executed.trans hst htu

/-- What leaves the core that holds the turn alone. -/
theorem of_cur_eq {s t : State} (h : t.cur = s.cur) : s.Executed t := by
  rw [State.Executed, h]
  exact .refl _

theorem onCur {s : State} {f : CoreState → CoreState} (h : s.cur.Executed (f s.cur)) : s.Executed (s.onCur f) := by
  rwa [State.Executed, State.onCur_cur]

theorem writeBase (s : State) (a : Addressing) (rn : Reg) : s.Executed (s.writeBase a rn) := by
  unfold State.writeBase
  split
  · exact .onCur (.setReg _ rn _)
  · exact .refl s

theorem writeBlockBase (s : State) (w : Bool) (rn : Reg) (v : Word) : s.Executed (s.writeBlockBase w rn v) := by
  unfold State.writeBlockBase
  split
  · exact .onCur (.setReg _ rn v)
  · exact .refl s

theorem stageReg (s : State) (i : Reg) (addr v : Word) : s.Executed (s.stageReg i addr v) :=
  .onCur (.stage _ i _ addr v)

theorem read (s : State) (a : Word) (w : Width) : s.Executed (s.read a w).2 := .of_cur_eq rfl

theorem write (s : State) (a : Word) (w : Width) (v : Word) : s.Executed (s.write a w v) := .of_cur_eq rfl

theorem load {ld : Loader} (h : ld.Reads) (k : CoreId) (s : State) (a : Word) : s.Executed (ld k s a).2 := by
  obtain ⟨a', w, heq⟩ := h k s a
  rw [heq]
  exact .read s a' w

theorem store {st : Storer} (h : st.Writes) (s : State) (a v : Word) : s.Executed (st s a v) := by
  obtain ⟨a', w, heq⟩ := h s a v
  rw [heq]
  exact .write s a' w v

theorem loadMany (user : Bool) (l : List Reg) (addr : Word) (s : State) : s.Executed (loadMany user l addr s) := by
  induction l generalizing addr s with
  | nil => exact .refl s
  | cons i rest ih =>
    exact ((State.Executed.read s addr .word).trans (.onCur (.stage _ i _ addr _))).trans (ih (addr + 4#32) _)

theorem storeMany (value : Reg → Word) (l : List Reg) (addr : Word) (s : State) :
    s.Executed (storeMany value l addr s) := by
  induction l generalizing addr s with
  | nil => exact .refl s
  | cons i rest ih =>
    exact ((State.Executed.write s addr .word (value i)).trans (.onCur (.recordAddr _ i addr))).trans
      (ih (addr + 4#32) _)

theorem enterHalted (s : State) : s.Executed s.enterHalted :=
  .onCur (.of_sameSlots rfl rfl rfl rfl rfl id (.inl rfl))

theorem enterWaitLoop (s : State) (n : Word) : s.Executed (s.enterWaitLoop n) :=
  .onCur (.of_sameSlots rfl rfl rfl rfl rfl id (.inl rfl))

theorem enterWaitInterrupt (s : State) (sel m : Word) : s.Executed (s.enterWaitInterrupt sel m) := by
  refine State.Executed.trans (t := s.setPorts _) (.of_cur_eq rfl) (.onCur ?_)
  exact .of_sameSlots rfl rfl rfl rfl rfl id (.inl rfl)

theorem biosAct (s : State) (a : BiosAction) : s.Executed (s.biosAct a) := by
  cases a with
  | setReg i v =>
    simp only [State.biosAct]
    split
    · exact .refl s
    · exact .onCur (.setReg _ i v)
  | read addr w => exact .of_cur_eq rfl
  | write addr w v => exact .of_cur_eq rfl

theorem biosActs (l : List BiosAction) (s : State) : s.Executed (l.foldl State.biosAct s) := by
  induction l generalizing s with
  | nil => exact .refl s
  | cons a rest ih => exact (biosAct s a).trans (ih _)

end State.Executed

theorem loadRule_executes {ld : Loader} (h : ld.Reads) (rn rd : Reg) (a : CoreState → Addressing) :
    Rule.Executes (loadRule ld rn rd a) :=
  fun k s => .done (((State.Executed.load h k s _).trans (.writeBase _ _ rn)).trans (.stageReg _ rd _ _))

theorem storeRule_executes {st : Storer} (h : st.Writes) (rn rd : Reg) (a : CoreState → Addressing) :
    Rule.Executes (storeRule st rn rd a) :=
  fun _ s => .done (((State.Executed.store h s _ _).trans (.onCur (.recordAddr _ rd _))).trans (.writeBase _ _ rn))

theorem ldrdRule_executes (rn rd : Reg) (a : CoreState → Addressing) : Rule.Executes (ldrdRule rn rd a) := by
  intro _ s
  have hread := (State.Executed.read s (alignWord (a s.cur).addr) .word).trans
    (.read _ (alignWord (a s.cur).addr + 4#32) .word)
  exact .done (((hread.trans (.writeBase _ _ rn)).trans (.stageReg _ rd _ _)).trans (.stageReg _ rd.succ _ _))

theorem strdRule_executes (rn rd : Reg) (a : CoreState → Addressing) : Rule.Executes (strdRule rn rd a) := by
  intro _ s
  have hwrite := (State.Executed.write s (alignWord (a s.cur).addr) .word (s.cur.reg rd)).trans
    (.write _ (alignWord (a s.cur).addr + 4#32) .word (s.cur.reg rd.succ))
  refine .done ((hwrite.trans (.onCur ?_)).trans (.writeBase _ _ rn))
  exact (CoreState.Executed.recordAddr _ rd _).trans (.recordAddr _ rd.succ _)

theorem swapRule_executes {ld : Loader} {st : Storer} (hld : ld.Reads) (hst : st.Writes) (rn rd rm : Reg) :
    Rule.Executes (swapRule ld st rn rd rm) :=
  fun k s => .done (((State.Executed.load hld k s _).trans (.store hst _ _ _)).trans (.stageReg _ rd _ _))

theorem ldmRule_executes (bm : BlockMode) (s w : Bool) (rn : Reg) (list : BitVec 16) :
    Rule.Executes (ldmRule bm s w rn list) :=
  fun _ st => .done ((State.Executed.loadMany _ _ _ st).trans (.writeBlockBase _ w rn _))

theorem stmRule_executes (bm : BlockMode) (s w : Bool) (rn : Reg) (list : BitVec 16) :
    Rule.Executes (stmRule bm s w rn list) :=
  fun _ st => .done ((State.Executed.storeMany _ _ _ st).trans (.writeBlockBase _ w rn _))

theorem thumbLoadRule_executes {ld : Loader} (h : ld.Reads) (rd : LoReg) (addr : CoreState → Word) :
    Rule.Executes (thumbLoadRule ld rd addr) :=
  fun k s => .done ((State.Executed.load h k s _).trans (.stageReg _ (loReg rd) _ _))

theorem thumbStoreRule_executes {st : Storer} (h : st.Writes) (rd : LoReg) (addr : CoreState → Word) :
    Rule.Executes (thumbStoreRule st rd addr) :=
  fun _ s => .done ((State.Executed.store h s _ _).trans (.onCur (.recordAddr _ (loReg rd) _)))

theorem pushRule_executes (list : BitVec 16) : Rule.Executes (pushRule list) :=
  fun _ s => .done ((State.Executed.storeMany _ _ _ s).trans (.onCur (.setReg _ .r13 _)))

theorem popRule_executes (list : BitVec 16) : Rule.Executes (popRule list) :=
  fun _ s => .done ((State.Executed.loadMany _ _ _ s).trans (.onCur (.setReg _ .r13 _)))

theorem thumbStmRule_executes (rb : LoReg) (list : BitVec 16) : Rule.Executes (thumbStmRule rb list) :=
  fun _ s => .done ((State.Executed.storeMany _ _ _ s).trans (.onCur (.setReg _ (loReg rb) _)))

theorem thumbLdmRule_executes (rb : LoReg) (list : BitVec 16) : Rule.Executes (thumbLdmRule rb list) :=
  fun _ s => .done ((State.Executed.loadMany _ _ _ s).trans (.onCur (.setReg _ (loReg rb) _)))

theorem hleSwi_executes (n : BitVec 8) : Rule.Executes (hleSwi n) := by
  intro k s
  unfold hleSwi
  split
  · exact .done (.enterWaitLoop s _)
  · exact .done (.enterWaitInterrupt s _ _)
  · exact .done (.enterWaitInterrupt s _ _)
  · exact .done (.enterHalted s)
  · split
    · exact .done ((State.Executed.biosActs _ s).trans (.of_cur_eq rfl))
    · exact .stop _

theorem swiRule_executes (n : BitVec 8) : Rule.Executes (swiRule n) := by
  intro k s
  unfold swiRule
  split
  · exact onCore_executes (fun k c => .done (.enterException c k _ _ _ _ _)) k s
  · exact hleSwi_executes n k s

theorem mcrRule_executes (r : Cp15Reg) (rd : Reg) : Rule.Executes (mcrRule r rd) := by
  intro k s
  have hwrite : s.Executed (s.cp15Write r (s.cur.reg rd)) := by
    unfold State.cp15Write
    split <;> exact .of_cur_eq rfl
  unfold mcrRule
  split
  · exact .stop _
  · refine .done ?_
    split
    · exact hwrite.trans (.enterHalted _)
    · exact hwrite

theorem mrcRule_executes (r : Cp15Reg) (rd : Reg) : Rule.Executes (mrcRule r rd) := by
  intro k s
  have hread : s.Executed (s.cp15Read r).2 := by
    unfold State.cp15Read
    split <;> exact .of_cur_eq rfl
  unfold mrcRule
  split
  · exact .stop _
  · refine .done (hread.trans (.onCur ?_))
    split
    · exact .setCpsr _ k (sameControl_flagsFrom _ _).psrT
    · exact .setReg _ rd _

/-! ## The common frame of the instructions -/

/-- The core has stopped with the slots and the instruction set as they were (41_pipeline.md R159). -/
structure CoreState.StoppedFrom (c d : CoreState) : Prop where
  running : d.running = false
  slots : ∀ j, (d.slot j).word = (c.slot j).word ∧ (d.slot j).tag = (c.slot j).tag
  thumb : psrT d.cpsr = psrT c.cpsr

/-- How an instruction leaves its core: executed, with nothing newly staged when the writeback stage is over, or
stopped. -/
def CoreState.Ran (c d : CoreState) : Prop :=
  (c.Executed d ∧ (c.execSlot.rmask = 0#16 → d.execSlot.rmask = 0#16)) ∨ c.StoppedFrom d

/-- A stop without a change of the slots before it. -/
theorem CoreState.Ran.stopWith (s : State) (d : Diag) : s.cur.Ran (s.stopWith d).cur := by
  refine .inr ?_
  rw [State.stopWith, State.onCur_cur]
  exact ⟨rfl, fun _ => ⟨rfl, rfl⟩, rfl⟩

/-- An instruction that is skipped. -/
theorem CoreState.Ran.skip (s : State) : s.cur.Ran s.skip.cur := by
  refine .inl ?_
  rw [State.skip, State.onCur_cur]
  exact ⟨.charge _ _, id⟩

/-- The writeback stage completes with the bitmap cleared; it stops for an exception return only, with nothing but
registers written. -/
theorem CoreState.writeStaged_cases (c : CoreState) (k : CoreId) (w : PcCommit) :
    (∃ d, c.writeStaged k w = .done d ∧ c.Executed d ∧ d.execSlot.rmask = 0#16)
      ∨ (w = .restore ∧ ∃ e f, c.writeStaged k w = .stop e { c with regs := f }) := by
  have hcommit := CoreState.Executed.withRegs c (allRegs.foldl (commitOne c.execSlot) c.regs)
  have hclear {d : CoreState} (hd : c.Executed d) :
      c.Executed d.clearStaged ∧ d.clearStaged.execSlot.rmask = 0#16 :=
    ⟨hd.trans (.clearStaged d), d.execSlot_clearStaged_rmask⟩
  unfold CoreState.writeStaged
  dsimp only
  split
  · cases w with
    | load => exact .inl ⟨_, rfl, hclear (hcommit.trans (.loadPc _ k _))⟩
    | restore =>
      obtain ⟨-, heq⟩ | ⟨-, heq⟩ := CoreState.exceptionReturn_cases
        { c with regs := allRegs.foldl (commitOne c.execSlot) c.regs } k c.instrAddr (c.execSlot.rval.get .r15)
      · rw [heq]
        exact .inl ⟨_, rfl, hclear (hcommit.trans (.exchange _ k _ _))⟩
      · rw [heq]
        exact .inr ⟨rfl, _, _, rfl⟩
  · exact .inl ⟨_, rfl, hclear hcommit⟩

/-- The writeback stage of the machine. -/
theorem State.writeStaged_cases (s : State) (k : CoreId) (w : PcCommit) :
    (∃ t, s.writeStaged k w = .done t ∧ s.Executed t ∧ t.cur.execSlot.rmask = 0#16)
      ∨ (w = .restore ∧ ∃ e f, s.writeStaged k w = .stop e (s.setCur { s.cur.accessMem with regs := f })) := by
  unfold State.writeStaged
  obtain ⟨d, hd, hexec, hclear⟩ | ⟨hw, e, f, he⟩ := s.cur.accessMem.writeStaged_cases k w
  · rw [hd]
    refine .inl ⟨_, rfl, ?_, ?_⟩
    · rw [State.Executed, State.setCur_cur]
      exact (CoreState.Executed.accessMem _).trans hexec
    · rw [State.setCur_cur, hclear]
  · rw [he]
    exact .inr ⟨hw, e, f, rfl⟩

/-- A rule that leaves T alone when it completes. -/
def Rule.KeepsThumb (r : Rule) : Prop := ∀ k s t, r k s = .done t → psrT t.cur.cpsr = psrT s.cur.cpsr

/-- LDM changes no status register before its writeback stage. -/
theorem ldmRule_keepsThumb (bm : BlockMode) (s w : Bool) (rn : Reg) (list : BitVec 16) :
    Rule.KeepsThumb (ldmRule bm s w rn list) := by
  intro k st t h
  cases h
  obtain ⟨-, -, -, hcpsr⟩ := loadMany_frame (s && !list.getLsbD 15) (regsOf list)
    (alignWord (blockStart bm (st.cur.reg rn) (listSpan list))) st
  unfold State.writeBlockBase
  split
  · rw [State.onCur_cur, CoreState.setReg_cpsr, hcpsr]
  · rw [hcpsr]

section
variable {i : Instr} {c : Cond} {w : PcCommit} {r : Rule} {s t : State}

/-- A recognized instruction, from what its rule does.  Only the writeback stage of an exception return can stop after
the rule, so only there the rule must leave T alone. -/
theorem CoreState.Ran.perform (hr : r.Executes) (hw : w = .load ∨ r.KeepsThumb) : s.cur.Ran (s.perform w r).cur := by
  have hrule := hr s.turn s
  cases hres : r s.turn s with
  | stop d u =>
    rw [hres] at hrule
    rw [State.perform_of_stop hres]
    cases hrule
    exact .stopWith s d
  | done u =>
    rw [hres] at hrule
    obtain ⟨hu⟩ := hrule
    simp only [State.perform, hres]
    obtain ⟨v, hv, hexec, hclear⟩ | ⟨hrestore, e, f, hv⟩ := u.writeStaged_cases s.turn w
    · rw [hv]
      refine .inl ?_
      rw [State.onCur_cur]
      exact ⟨(CoreState.Executed.trans hu hexec).trans (.charge _ _), fun _ => hclear⟩
    · have hthumb : psrT u.cur.cpsr = psrT s.cur.cpsr := by
        obtain hload | hkeeps := hw
        · rw [hrestore] at hload
          cases hload
        · exact hkeeps _ _ _ hres
      simp only [hv]
      refine .inr ?_
      rw [State.stopWith, State.onCur_cur, State.setCur_cur]
      exact ⟨rfl, (CoreState.Executed.trans hu (.accessMem _)).slots, by simpa using hthumb⟩

theorem CoreState.Ran.runAlways (h : runAlways i w r s = .next t) (hr : r.Executes)
    (hw : w = .load ∨ r.KeepsThumb := by exact .inl rfl) : s.cur.Ran t.cur := by
  unfold Machine.runAlways at h
  split at h <;> cases h
  · exact .perform hr hw
  · exact .stopWith s _

theorem CoreState.Ran.runCond (h : runCond i c w r s = .next t) (hr : r.Executes)
    (hw : w = .load ∨ r.KeepsThumb := by exact .inl rfl) : s.cur.Ran t.cur := by
  unfold Machine.runCond at h
  split at h
  · exact .runAlways h hr hw
  · cases h
    exact .skip s

theorem CoreState.Ran.runFastUncond (h : runFastUncond i r s = .next t) (hr : r.Executes) : s.cur.Ran t.cur := by
  unfold Machine.runFastUncond at h
  split at h
  · exact .runAlways h hr
  · cases h
    exact .skip s

end

/-! ## The instructions -/

/-- Every instruction executes or stops its core. -/
theorem exec_ran {i : Instr} {s t : State} (h : exec i s = .next t) : s.cur.Ran t.cur := by
  cases i with
  | andShiftImm | andShiftReg | andImm | eorShiftImm | eorShiftReg | eorImm | subShiftImm | subShiftReg | subImm
  | rsbShiftImm | rsbShiftReg | rsbImm | addShiftImm | addShiftReg | addImm | adcShiftImm | adcShiftReg | adcImm
  | sbcShiftImm | sbcShiftReg | sbcImm | rscShiftImm | rscShiftReg | rscImm | orrShiftImm | orrShiftReg | orrImm
  | movShiftImm | movShiftReg | movImm | bicShiftImm | bicShiftReg | bicImm | mvnShiftImm | mvnShiftReg | mvnImm =>
    exact .runCond h (onCore_executes fun k c => within_dpWrite _ _ k c _ (sameControl_dpCompute _ _ _ _ _))
  | tstShiftImm | tstShiftReg | tstImm | teqShiftImm | teqShiftReg | teqImm | cmpShiftImm | cmpShiftReg | cmpImm
  | cmnShiftImm | cmnShiftReg | cmnImm =>
    exact .runCond h (onCore_executes fun k c => .done (.setCpsr c k (sameControl_dpCompute _ _ _ _ _).psrT))
  | mrs | clz | smulwY | smulXY => exact .runCond h (onCore_executes fun _ c => .done (.setReg c _ _))
  | msrReg | msrImm => exact .runCond h (onCore_executes (msrRule_executes _ _ _))
  | mul | mla => exact .runCond h (onCoreCfg_executes (mulWrite_executes _ _ _))
  | umull | umlal | smull | smlal => exact .runCond h (onCoreCfg_executes (mullWrite_executes _ _ _ _))
  | qadd | qsub | qdadd | qdsub | smlaXY | smlawY =>
    exact .runCond h (onCore_executes fun k c => within_writeSticky _ _ _ k c)
  | smlalXY =>
    exact .runCond h (onCore_executes fun _ c => .done ((CoreState.Executed.setReg c _ _).trans (.setReg _ _ _)))
     
  | ldrImm | ldrReg | ldrtImm | ldrtReg => exact .runCond h (loadRule_executes loadWord_reads _ _ _)
  | ldrbImm | ldrbReg | ldrbtImm | ldrbtReg => exact .runCond h (loadRule_executes loadByte_reads _ _ _)
  | ldrh => exact .runCond h (loadRule_executes loadHalf_reads _ _ _)
  | ldrsb => exact .runCond h (loadRule_executes loadSignedByte_reads _ _ _)
  | ldrsh => exact .runCond h (loadRule_executes loadSignedHalf_reads _ _ _)
  | strImm | strReg | strtImm | strtReg => exact .runCond h (storeRule_executes storeWord_writes _ _ _)
  | strbImm | strbReg | strbtImm | strbtReg => exact .runCond h (storeRule_executes storeByte_writes _ _ _)
  | strh => exact .runCond h (storeRule_executes storeHalf_writes _ _ _)
  | ldrd => exact .runCond h (ldrdRule_executes _ _ _)
  | strd => exact .runCond h (strdRule_executes _ _ _)
  | ldm => exact .runCond h (ldmRule_executes _ _ _ _ _) (.inr (ldmRule_keepsThumb _ _ _ _ _))
  | stm => exact .runCond h (stmRule_executes _ _ _ _ _)
  | swp => exact .runCond h (swapRule_executes loadWord_reads storeWord_writes _ _ _)
  | swpb => exact .runCond h (swapRule_executes loadByte_reads storeByte_writes _ _ _)
  | pld => exact .runFastUncond h fun _ s => .done (.refl s)
  | b => exact .runCond h (onCore_executes fun _ c => .done (.setReg c .r15 _))
  | bl =>
    exact .runCond h (onCore_executes fun _ c => .done ((CoreState.Executed.setReg c .r14 _).trans (.setReg _ .r15 _)))
     
  | bx => exact .runCond h (onCore_executes fun k c => .done (.exchange c k _ _))
  | blxImm =>
    exact .runFastUncond h
      (onCore_executes fun k c => .done ((CoreState.Executed.setReg c .r14 _).trans (.exchange _ k _ _)))
  | blxReg =>
    exact .runCond h
      (onCore_executes fun k c => .done ((CoreState.Executed.setReg c .r14 _).trans (.exchange _ k _ _)))
  | swi => exact .runCond h (swiRule_executes _)
  | bkpt => exact .runCond (i := .bkpt _) (c := .al) h (fun _ _ => .stop _)
  | mcr => exact .runCond h (mcrRule_executes _ _)
  | mrc => exact .runCond h (mrcRule_executes _ _)
  | tLslImm | tLsrImm | tAsrImm | tLslAlu | tLsrAlu | tAsrAlu | tRorAlu =>
    exact .runAlways h
      (onCore_executes fun k c => .done (.setReg_flags true k c _ _ (sameControl_updateLogical _ _ _)))
  | tAddReg | tSubReg | tAddImm3 | tSubImm3 | tMovImm8 | tAddImm8 | tSubImm8 | tAndAlu | tEorAlu | tAdcAlu | tSbcAlu
  | tNegAlu | tOrrAlu | tBicAlu | tMvnAlu =>
    exact .runAlways h
      (onCore_executes fun k c => .done (.setReg_flags true k c _ _ (sameControl_dpCompute _ _ _ _ _)))
  | tCmpImm8 | tTstAlu | tCmpAlu | tCmnAlu | tCmpHi =>
    exact .runAlways h
      (onCore_executes fun k c => .done (.setCpsr c k (sameControl_dpCompute _ _ _ _ _).psrT))
  | tMulAlu =>
    exact .runAlways h
      (onCoreCfg_executes fun _ k c => .done (.setReg_flags true k c _ _ (sameControl_mulPsr _ _ _ _ _)))
  | tAddHi | tMovHi | tAddPc | tAddSp | tIncSp | tDecSp | tBlPrefix =>
    exact .runAlways h (onCore_executes fun _ c => .done (.setReg c _ _))
  | tB => exact .runAlways h (onCore_executes fun _ c => .done (.setReg c .r15 _))
  | tBx => exact .runAlways h (onCore_executes fun k c => .done (.exchange c k _ _))
  | tBlxReg | tBlxSuffix =>
    exact .runAlways h
      (onCore_executes fun k c => .done ((CoreState.Executed.setReg c .r14 _).trans (.exchange _ k _ _)))
  | tBlSuffix =>
    exact .runAlways h
      (onCore_executes fun _ c => .done ((CoreState.Executed.setReg c .r14 _).trans (.setReg _ .r15 _)))
  | tLdrPc | tLdrReg | tLdrImm | tLdrSp => exact .runAlways h (thumbLoadRule_executes loadWord_reads _ _)
  | tLdrbReg | tLdrbImm => exact .runAlways h (thumbLoadRule_executes loadByte_reads _ _)
  | tLdrhReg | tLdrhImm => exact .runAlways h (thumbLoadRule_executes loadHalf_reads _ _)
  | tLdrsbReg => exact .runAlways h (thumbLoadRule_executes loadSignedByte_reads _ _)
  | tLdrshReg => exact .runAlways h (thumbLoadRule_executes loadSignedHalf_reads _ _)
  | tStrReg | tStrImm | tStrSp => exact .runAlways h (thumbStoreRule_executes storeWord_writes _ _)
  | tStrbReg | tStrbImm => exact .runAlways h (thumbStoreRule_executes storeByte_writes _ _)
  | tStrhReg | tStrhImm => exact .runAlways h (thumbStoreRule_executes storeHalf_writes _ _)
  | tPush => exact .runAlways h (pushRule_executes _)
  | tPop => exact .runAlways h (popRule_executes _)
  | tStmia => exact .runAlways h (thumbStmRule_executes _ _)
  | tLdmia => exact .runAlways h (thumbLdmRule_executes _ _)
  | tBCond => exact .runAlways h (onCore_executes (thumbCondRule_executes _ _))
  | tSwi => exact .runAlways h (swiRule_executes _)

/-- Execute on a slot executes or stops the core. -/
theorem executeSlot_ran {s t : State} (h : s.executeSlot = .next t) : s.cur.Ran t.cur := by
  have hunrecognized (h : s.executeUnrecognized = .next t) : s.cur.Ran t.cur := by
    simp only [State.executeUnrecognized] at h
    split at h <;> cases h
    · exact .stopWith s _
    · exact .skip s
  simp only [State.executeSlot] at h
  split at h
  · split at h
    · exact exec_ran h
    · exact hunrecognized h
  · exact hunrecognized h

end Sys2Proof.Machine
end

section
/-! SUPPORT. The stages of a pipeline cycle before execute: what fetch and decode put into the slots, and which slots
they reach (41_pipeline.md R140 to R148). -/

namespace Sys2Proof.Machine

/-! ## Slots -/

/-- The slots that fetch, decode and execute work on are three different ones (41_pipeline.md R140). -/
theorem CoreState.ptr_ne_decodeIdx (c : CoreState) : c.ptr ≠ c.decodeIdx := by
  have h : ∀ p : Fin 3, p ≠ p + 2 := by decide
  exact h c.ptr

theorem CoreState.execIdx_ne_ptr (c : CoreState) : c.execIdx ≠ c.ptr := by
  have h : ∀ p : Fin 3, p + 1 ≠ p := by decide
  exact h c.ptr

theorem CoreState.execIdx_ne_decodeIdx (c : CoreState) : c.execIdx ≠ c.decodeIdx := by
  have h : ∀ p : Fin 3, p + 1 ≠ p + 2 := by decide
  exact h c.ptr

/-- Replacing a slot by itself. -/
@[simp] theorem CoreState.setSlot_slot (c : CoreState) (j : Fin 3) : c.setSlot j (c.slot j) = c := by
  match j with
  | 0 | 1 | 2 => rfl

/-- Every slot of a flushed core is empty. -/
@[simp] theorem CoreState.slot_flush (c : CoreState) (j : Fin 3) : c.flush.slot j = Slot.empty := by
  match j with
  | 0 | 1 | 2 => rfl

/-- The advance of r15 leaves the slots alone. -/
@[simp] theorem CoreState.slot_updatePc (c : CoreState) (j : Fin 3) : c.updatePc.slot j = c.slot j :=
  CoreState.slot_congr rfl rfl rfl j

/-! ## Fetch and decode -/

/-- The slot that fetch fills: the word at r15, untagged, nothing staged (41_pipeline.md R144). -/
def State.fetchedSlot (s : State) : Slot :=
  { Slot.empty with word := memLoad s.mem s.cur.fetchAccess.1 s.cur.fetchAccess.2, tag := .RAW }

/-- A slot after decode: a RAW one has the tag of its word, any other is as before (41_pipeline.md R145). -/
def Slot.afterDecode (k : CoreId) (thumb : Bool) (sl : Slot) : Slot :=
  if sl.tag = .RAW then { sl with tag := decodeTag k thumb sl.word } else sl

/-- Fetch changes the slot at the pointer and nothing else. -/
theorem State.fetch_cur (s : State) : s.fetch.cur = s.cur.setSlot s.cur.ptr s.fetchedSlot := by
  rw [State.fetch, State.onCur_cur]
  rfl

/-- Decode changes the slot one stage behind the pointer and nothing else. -/
theorem CoreState.decodeStage_eq (c : CoreState) (k : CoreId) :
    c.decodeStage k = c.setSlot c.decodeIdx ((c.slot c.decodeIdx).afterDecode k (psrT c.cpsr)) := by
  unfold CoreState.decodeStage Slot.afterDecode
  dsimp only
  split
  · rfl
  · rw [CoreState.setSlot_slot]

/-- The core after fetch and decode. -/
theorem State.frontEnd_cur (s : State) :
    s.frontEnd.cur = (s.cur.setSlot s.cur.ptr s.fetchedSlot).setSlot s.cur.decodeIdx
      ((s.cur.slot s.cur.decodeIdx).afterDecode s.turn (psrT s.cur.cpsr)) := by
  have hidx : (s.cur.setSlot s.cur.ptr s.fetchedSlot).decodeIdx = s.cur.decodeIdx := by
    rw [CoreState.decodeIdx, CoreState.setSlot_ptr, CoreState.decodeIdx]
  rw [State.frontEnd, State.onCur_cur, CoreState.decodeStage_eq, State.fetch_cur, hidx, CoreState.setSlot_cpsr,
    CoreState.slot_setSlot_ne _ _ s.cur.ptr_ne_decodeIdx.symm]

@[simp] theorem State.frontEnd_turn (s : State) : s.frontEnd.turn = s.turn := rfl

@[simp] theorem State.frontEnd_mem (s : State) : s.frontEnd.mem = s.mem := rfl

@[simp] theorem State.frontEnd_regs (s : State) : s.frontEnd.cur.regs = s.cur.regs := by simp [State.frontEnd_cur]

@[simp] theorem State.frontEnd_cpsr (s : State) : s.frontEnd.cur.cpsr = s.cur.cpsr := by simp [State.frontEnd_cur]

@[simp] theorem State.frontEnd_ptr (s : State) : s.frontEnd.cur.ptr = s.cur.ptr := by simp [State.frontEnd_cur]

@[simp] theorem State.frontEnd_needsFlush (s : State) : s.frontEnd.cur.needsFlush = s.cur.needsFlush := by
  simp [State.frontEnd_cur]

@[simp] theorem State.frontEnd_running (s : State) : s.frontEnd.cur.running = s.cur.running := by
  simp [State.frontEnd_cur]

@[simp] theorem State.frontEnd_instrAddr (s : State) : s.frontEnd.cur.instrAddr = s.cur.instrAddr := by
  simp only [CoreState.instrAddr, CoreState.width, State.frontEnd_regs, State.frontEnd_cpsr]

/-- The fetched word is in the slot at the pointer, still RAW. -/
theorem State.frontEnd_slot_ptr (s : State) : s.frontEnd.cur.slot s.cur.ptr = s.fetchedSlot := by
  rw [State.frontEnd_cur, CoreState.slot_setSlot_ne _ _ s.cur.ptr_ne_decodeIdx, CoreState.slot_setSlot_self]

/-- The slot one stage behind the pointer is decoded. -/
theorem State.frontEnd_slot_decodeIdx (s : State) :
    s.frontEnd.cur.slot s.cur.decodeIdx = (s.cur.slot s.cur.decodeIdx).afterDecode s.turn (psrT s.cur.cpsr) := by
  rw [State.frontEnd_cur, CoreState.slot_setSlot_self]

/-- Fetch and decode leave the executing slot alone. -/
@[simp] theorem State.frontEnd_execSlot (s : State) : s.frontEnd.cur.execSlot = s.cur.execSlot := by
  have hidx : s.frontEnd.cur.execIdx = s.cur.execIdx := by rw [CoreState.execIdx, State.frontEnd_ptr, CoreState.execIdx]
  rw [CoreState.execSlot, hidx, State.frontEnd_cur, CoreState.slot_setSlot_ne _ _ s.cur.execIdx_ne_decodeIdx,
    CoreState.slot_setSlot_ne _ _ s.cur.execIdx_ne_ptr, CoreState.execSlot]

/-! ## The start of a tick -/

/-- A pulse leaves the cores alone. -/
@[simp] theorem State.pulse_cur (s : State) : s.pulse.cur = s.cur := by
  unfold State.pulse
  split <;> rfl

/-- The start of a tick leaves the core as it is but for its cycle counter (60_exceptions.md R377). -/
@[simp] theorem State.beginTick_cur (s : State) : s.beginTick.cur = { s.cur with cycles := 0 } := by
  rw [State.beginTick, State.pulse_cur, State.onCur_cur]
  rfl

@[simp] theorem State.beginTick_turn (s : State) : s.beginTick.turn = s.turn := (Changes.beginTick s).sameElsewhere.turn

/-! ## Execute -/

/-- Recording the dispatch changes the diagnostic pair and nothing else (41_pipeline.md R164). -/
theorem State.recordDispatch_cur (s : State) : s.recordDispatch.cur =
    { s.cur with dbgTag := s.cur.execSlot.tag, dbgOperand := s.cur.execSlot.word } := State.onCur_cur _ _

@[simp] theorem State.recordDispatch_cpsr (s : State) : s.recordDispatch.cur.cpsr = s.cur.cpsr := by
  rw [State.recordDispatch_cur]

@[simp] theorem State.recordDispatch_running (s : State) : s.recordDispatch.cur.running = s.cur.running := by
  rw [State.recordDispatch_cur]

@[simp] theorem State.recordDispatch_execSlot (s : State) : s.recordDispatch.cur.execSlot = s.cur.execSlot := by
  rw [State.recordDispatch_cur]
  rfl

/-- Decode tags no instruction FILLING or RAW, so execute dispatches it (41_pipeline.md R149). -/
theorem Slot.decoded_of_instr {sl : Slot} {i : Instr} (h : sl.tag = i.tag) : sl.decoded = true := by
  have htag : i.tag ≠ .FILLING ∧ i.tag ≠ .RAW := by cases i <;> exact ⟨nofun, nofun⟩
  rw [Slot.decoded, h, Bool.and_eq_true, bne_iff_ne, bne_iff_ne]
  exact htag

/-- Execute on the slot of an instruction. -/
theorem State.executeSlot_of_decoded {s : State} {i : Instr}
    (hword : decodeWord s.turn (psrT s.cur.cpsr) s.cur.execSlot.word = .ok i) (htag : s.cur.execSlot.tag = i.tag) :
    s.executeSlot = exec i s := by
  simp only [State.executeSlot, hword, htag, if_true]

/-- A cycle that fills (41_pipeline.md R142, R148). -/
theorem State.pipelineCycle_of_filling {s : State} (h : s.cur.execSlot.decoded = false) :
    s.pipelineCycle = .next (s.frontEnd.fillStage.onCur CoreState.endCycle) := by
  simp only [State.pipelineCycle, State.frontEnd_execSlot, h]
  rfl

/-- A cycle that dispatches (41_pipeline.md R142, R149). -/
theorem State.pipelineCycle_of_decoded {s t : State} (h : s.cur.execSlot.decoded = true)
    (ht : s.frontEnd.recordDispatch.executeSlot = .next t) : s.pipelineCycle = .next t.afterExecute := by
  simp only [State.pipelineCycle, State.frontEnd_execSlot, h, ht, if_true]

end Sys2Proof.Machine
end

section
/-! CERTIFICATE. The slots of the pipeline: a step keeps each tag that of its word, and nothing staged between ticks. -/

namespace Sys2Proof.Machine

/-! ## The invariant of the slots -/

section
variable {k : CoreId} {c d : CoreState}

/-- Nothing is staged in any slot. -/
def CoreState.NothingStaged (c : CoreState) : Prop := ∀ j, (c.slot j).rmask = 0#16

/-- The words and the tags of the slots fit the instruction set `thumb`. -/
def CoreState.Tagged (k : CoreId) (thumb : Bool) (c : CoreState) : Prop := ∀ j, (c.slot j).TagInv k thumb

theorem Slot.tagInv_congr {thumb : Bool} {sl sl' : Slot} (hsame : sl'.word = sl.word ∧ sl'.tag = sl.tag)
    (h : sl.TagInv k thumb) : sl'.TagInv k thumb := by
  obtain ⟨hword, htag⟩ := hsame
  simpa only [Slot.TagInv, Slot.decoded, hword, htag] using h

/-- The invariant of a core, by its three parts. -/
theorem CoreState.slotInv_iff :
    c.SlotInv k ↔ c.Tagged k (psrT c.cpsr) ∧ (c.running = true → c.needsFlush = false ∧ c.NothingStaged) := Iff.rfl

/-- An operation on none of the fields that the invariant names. -/
theorem CoreState.SlotInv.of_same (h : c.SlotInv k) (h0 : d.slot0 = c.slot0) (h1 : d.slot1 = c.slot1)
    (h2 : d.slot2 = c.slot2) (hcpsr : d.cpsr = c.cpsr) (hflush : d.needsFlush = c.needsFlush)
    (hrunning : d.running = c.running) : d.SlotInv k := by
  have hslot := CoreState.slot_congr h0 h1 h2
  simp only [CoreState.SlotInv, hslot, hcpsr, hflush, hrunning]
  exact h

/-- Replacing a slot. -/
theorem CoreState.SlotInv.setSlot (h : c.SlotInv k) (j : Fin 3) {sl : Slot} (htag : sl.TagInv k (psrT c.cpsr))
    (hrmask : (c.slot j).rmask = 0#16 → sl.rmask = 0#16) : (c.setSlot j sl).SlotInv k := by
  obtain ⟨htags, hrun⟩ := h
  have hcases (P : Slot → Prop) (hsl : P sl) (hrest : ∀ i, P (c.slot i)) (i : Fin 3) : P ((c.setSlot j sl).slot i) := by
    by_cases hi : i = j
    · rw [hi, CoreState.slot_setSlot_self]
      exact hsl
    · rw [CoreState.slot_setSlot_ne c sl hi]
      exact hrest i
  rw [CoreState.slotInv_iff, CoreState.setSlot_cpsr, CoreState.setSlot_running, CoreState.setSlot_needsFlush]
  refine ⟨hcases (Slot.TagInv k (psrT c.cpsr)) htag htags, fun hr => ?_⟩
  obtain ⟨hflush, hstaged⟩ := hrun hr
  exact ⟨hflush, hcases (fun sl => sl.rmask = 0#16) (hrmask (hstaged j)) hstaged⟩

/-- What fetch answers in Thumb state is a halfword (41_pipeline.md R147). -/
theorem memLoad_half_lt (m : List Host.Cell) (a : Word) : (memLoad m a .half).toNat < 2 ^ 16 := by
  rw [memLoad, BitVec.toNat_setWidth]
  exact Nat.lt_of_le_of_lt (Nat.mod_le _ _) (BitVec.isLt _)

/-- The fetched slot holds an untagged word of the current state (41_pipeline.md R144). -/
theorem State.fetchedSlot_tagInv (s : State) (k : CoreId) : s.fetchedSlot.TagInv k (psrT s.cur.cpsr) := by
  refine ⟨fun hthumb => ?_, nofun⟩
  have haccess : s.cur.fetchAccess = (alignHalf s.cur.regs.r15, .half) := if_pos hthumb
  rw [State.fetchedSlot, haccess]
  exact memLoad_half_lt _ _

/-- Decode gives a slot the tag of its word (41_pipeline.md R145). -/
theorem Slot.afterDecode_tagInv {thumb : Bool} {sl : Slot} (h : sl.TagInv k thumb) :
    (sl.afterDecode k thumb).TagInv k thumb := by
  unfold Slot.afterDecode
  split
  · obtain ⟨hword, -⟩ := h
    exact ⟨hword, fun _ => rfl⟩
  · exact h

/-- Decode stages nothing. -/
@[simp] theorem Slot.afterDecode_rmask (k : CoreId) (thumb : Bool) (sl : Slot) :
    (sl.afterDecode k thumb).rmask = sl.rmask := by
  unfold Slot.afterDecode
  split <;> rfl

/-- Fetch and decode keep the invariant. -/
theorem State.frontEnd_slotInv {s : State} (h : s.cur.SlotInv s.turn) : s.frontEnd.cur.SlotInv s.turn := by
  obtain ⟨htags, -⟩ := id h
  rw [State.frontEnd_cur]
  refine (h.setSlot _ (s.fetchedSlot_tagInv s.turn) fun _ => rfl).setSlot _ ?_ fun hstaged => ?_
  · rw [CoreState.setSlot_cpsr]
    exact Slot.afterDecode_tagInv (htags _)
  · rw [CoreState.slot_setSlot_ne _ _ s.cur.ptr_ne_decodeIdx.symm] at hstaged
    rw [Slot.afterDecode_rmask, hstaged]

/-- The end of a cycle on slots of the state of before, with a flush requested if the state changed. -/
theorem CoreState.endCycle_slotInv {thumb : Bool} (htags : c.Tagged k thumb)
    (hthumb : psrT c.cpsr = thumb ∨ c.needsFlush = true) (hstaged : c.NothingStaged) : c.endCycle.SlotInv k := by
  unfold CoreState.endCycle
  split
  · refine ⟨fun j => ?_, fun _ => ⟨rfl, fun j => ?_⟩⟩ <;> rw [CoreState.slot_flush]
    · exact Slot.tagInv_empty k _
    · rfl
  · next hflush =>
    have hsame : psrT c.cpsr = thumb := hthumb.resolve_right hflush
    subst hsame
    have hcycle : c.SlotInv k := ⟨htags, fun _ => ⟨Bool.eq_false_of_not_eq_true hflush, hstaged⟩⟩
    exact hcycle.of_same rfl rfl rfl rfl rfl rfl

/-- The words and the tags after execution fit the state of before. -/
theorem CoreState.Executed.tagged (h : c.Executed d) {thumb : Bool} (hc : c.Tagged k thumb) : d.Tagged k thumb :=
  fun j => Slot.tagInv_congr (h.slots j) (hc j)

/-- With the bitmap of the executing slot cleared, nothing is staged after execution. -/
theorem CoreState.Executed.nothingStaged (h : c.Executed d) (hexec : d.execSlot.rmask = 0#16) (hc : c.NothingStaged) :
    d.NothingStaged := by
  intro j
  by_cases hj : j = c.execIdx
  · have hidx : c.execIdx = d.execIdx := by rw [CoreState.execIdx, CoreState.execIdx, h.ptr]
    rw [hj, hidx]
    exact hexec
  · rw [h.rmask j hj, hc j]

end

/-- The interrupt dispatch is the entry of an exception, or nothing. -/
theorem State.irqDispatch_executed (s : State) :
    s.Executed s.irqDispatch ∧ ∀ j, s.irqDispatch.cur.slot j = s.cur.slot j := by
  unfold State.irqDispatch
  split
  · rw [State.Executed, State.onCur_cur]
    exact ⟨.enterException _ _ _ _ _ _ _, CoreState.slot_congr (by simp) (by simp) (by simp)⟩
  · exact ⟨.refl s, fun _ => rfl⟩

/-- The cycle of a running core after its execute stage: a core that executed takes an interrupt or not and ends its
cycle, a core that stopped stays as it is (41_pipeline.md R142, R159). -/
theorem State.afterExecute_slotInv {c : CoreState} {s : State} {k : CoreId} (hc : c.SlotInv k) (hr : c.running = true)
    (h : c.Ran s.cur) : s.afterExecute.cur.SlotInv k := by
  rw [CoreState.slotInv_iff] at hc
  obtain ⟨htags, hrun⟩ := hc
  obtain ⟨-, hstaged⟩ := hrun hr
  unfold State.afterExecute
  obtain ⟨hexec, hclear⟩ | hstop := h
  · have hnone := hexec.nothingStaged (hclear (hstaged _)) hstaged
    rw [if_pos (hexec.running.trans hr), State.onCur_cur]
    split
    · obtain ⟨hirq, hslots⟩ := s.irqDispatch_executed
      have hboth := hexec.trans hirq
      refine CoreState.endCycle_slotInv (hboth.tagged htags) hboth.thumb fun j => ?_
      rw [hslots, hnone]
    · exact CoreState.endCycle_slotInv (hexec.tagged htags) hexec.thumb hnone
  · rw [hstop.running, if_neg Bool.false_ne_true, CoreState.slotInv_iff, hstop.thumb, hstop.running]
    exact ⟨fun j => Slot.tagInv_congr (hstop.slots j) (htags j), nofun⟩

/-- A pipeline cycle of a running core. -/
theorem State.pipelineCycle_slotInv {s t : State} (hs : s.cur.SlotInv s.turn) (hr : s.cur.running = true)
    (h : s.pipelineCycle = .next t) : t.cur.SlotInv s.turn := by
  have hinv := State.frontEnd_slotInv hs
  have hrunning : s.frontEnd.cur.running = true := by rw [State.frontEnd_running, hr]
  simp only [State.pipelineCycle] at h
  split at h
  · split at h
    · next u hu =>
      cases h
      have hrecord : s.frontEnd.recordDispatch.cur.SlotInv s.turn := by
        rw [State.recordDispatch_cur]
        exact hinv.of_same rfl rfl rfl rfl rfl rfl
      exact State.afterExecute_slotInv hrecord (by rw [State.recordDispatch_running, hrunning]) (executeSlot_ran hu)
    · cases h
    · cases h
  · cases h
    obtain ⟨htags, hrun⟩ := hinv
    obtain ⟨-, hstaged⟩ := hrun hrunning
    rw [State.onCur_cur, State.fillStage, State.onCur_cur]
    exact CoreState.endCycle_slotInv htags (.inl rfl) hstaged

/-! ## The step -/

/-- The idle step reaches no slot. -/
theorem State.idleStep_slotInv {s : State} {k : CoreId} (h : s.cur.SlotInv k) : s.idleStep.cur.SlotInv k := by
  have hidle (i : IdleState) (n : Word) : CoreState.SlotInv k { s.cur with idleState := i, waitCount := n } :=
    h.of_same rfl rfl rfl rfl rfl rfl
  have hhalted : s.idleHalted.cur.SlotInv k := by
    unfold State.idleHalted
    split
    · rw [State.onCur_cur]
      exact hidle _ _
    · exact h
  have hwait : s.idleWaitInterrupt.cur.SlotInv k := by
    unfold State.idleWaitInterrupt
    split
    · rw [State.onCur_cur]
      exact hidle _ _
    · exact h
  have hloop : s.idleWaitLoop.cur.SlotInv k := by
    rw [State.idleWaitLoop, State.onCur_cur]
    exact hidle _ _
  unfold State.idleStep
  rw [State.onCur_cur]
  refine CoreState.SlotInv.of_same ?_ rfl rfl rfl rfl rfl rfl
  cases s.cur.idleState with
  | running => exact h
  | halted => exact hhalted
  | waitLoop => exact hloop
  | waitInterrupt => exact hwait

/-- The work of a tick keeps the invariant of a running core. -/
theorem State.work_slotInv {s t : State} (hs : s.cur.SlotInv s.turn) (hr : s.cur.running = true)
    (h : s.work = .next t) : (t.cores.get s.turn).SlotInv s.turn := by
  have hbegin : s.beginTick.cur.SlotInv s.beginTick.turn ∧ s.beginTick.cur.running = true := by
    rw [State.beginTick_cur, State.beginTick_turn]
    exact ⟨hs.of_same rfl rfl rfl rfl rfl rfl, hr⟩
  have hsettle {u : State} (hu : u.cur.SlotInv s.beginTick.turn) (hturn : u.turn = s.beginTick.turn) :
      (u.settle.cores.get s.turn).SlotInv s.turn := by
    rw [State.beginTick_turn] at hu hturn
    obtain ⟨hcores, -⟩ := u.settle_frame
    rwa [hcores, ← hturn, ← State.cur, hturn]
  obtain ⟨hinv, hrunning⟩ := hbegin
  simp only [State.work] at h
  split at h
  · split at h
    · next u hu =>
      cases h
      exact hsettle (State.pipelineCycle_slotInv hinv hrunning hu) (Changes.pipelineCycle hu).sameElsewhere.turn
    · cases h
    · cases h
  · cases h
    exact hsettle (State.idleStep_slotInv hinv) (Changes.idleStep _).sameElsewhere.turn

/-- A step with a stopped core leaves both cores alone (60_exceptions.md R376). -/
theorem step_of_stopped {s t : State} (hstop : ¬(s.cores.fast.running = true ∧ s.cores.slow.running = true))
    (h : step s = .next t) : t.cores = s.cores := by
  have hguard : (!s.cores.fast.running || !s.cores.slow.running) = true := by
    cases hf : s.cores.fast.running <;> cases hs : s.cores.slow.running <;> simp_all
  simp only [step, schedulerTick, hguard] at h
  split at h <;> cases h <;> rfl

/-- With both cores running, the core that holds the turn runs. -/
theorem State.cur_running {s : State} (h : s.cores.fast.running = true ∧ s.cores.slow.running = true) :
    s.cur.running = true := by
  obtain ⟨hfast, hslow⟩ := h
  unfold State.cur
  cases s.turn with
  | fast => exact hfast
  | slow => exact hslow

/-- Settles O13: a tick works on a running core, whose instruction executes or stops it; a change of state ends in a
flush, and a stop comes before any change of state. -/
theorem stepKeepsSlots : Obligations.StepKeepsSlots := by
  unfold Obligations.StepKeepsSlots
  intro s t hs h k
  by_cases hk : k = s.turn
  case neg =>
    obtain ⟨hcore, -⟩ := stepLeavesOtherCore s t k hk h
    rw [hcore]
    exact hs k
  subst hk
  by_cases hrun : s.cores.fast.running = true ∧ s.cores.slow.running = true
  case neg =>
    rw [step_of_stopped hrun h]
    exact hs _
  have hcur := State.cur_running hrun
  obtain hwork | hwork | ⟨session, debug, hhalt⟩ := step_cases s
  · exact State.work_slotInv (hs s.turn) hcur (hwork.symm.trans h)
  · exact State.work_slotInv (s := { s with bpResume := false }) (hs s.turn) hcur (hwork.symm.trans h)
  · cases hhalt.symm.trans h
    exact hs _

end Sys2Proof.Machine
end

section
/-! CERTIFICATE. The pipeline cycle: its end, the dispatch of a decoded instruction, and the refill after a flush. -/

namespace Sys2Proof.Machine

/-- Settles O8: the two branches of the end of a cycle. -/
theorem flushOrAdvance : Obligations.FlushOrAdvance := by
  unfold Obligations.FlushOrAdvance
  intro c
  refine ⟨fun hflush => ?_, fun hnone => ?_⟩
  · rw [CoreState.endCycle, if_pos hflush]
    rfl
  · rw [CoreState.endCycle, if_neg (Bool.eq_false_iff.mp hnone)]
    rfl

/-! ## The dispatch of a decoded instruction -/

/-- A tick that no guard stops does its work (60_exceptions.md R376, R377). -/
theorem step_of_unguarded {s : State} (hsession : s.sessionHalted = false) (hfast : s.cores.fast.running = true)
    (hslow : s.cores.slow.running = true) (hdebug : s.debugHalted = false) (hresume : s.bpResume = false)
    (hbreak : s.breakpoints.contains s.cur.instrAddr = false) : step s = s.work := by
  have haddr {a : Word} (h : s.breakpointAt = some a) : s.breakpoints.contains a = false := by
    unfold State.breakpointAt at h
    split at h <;> cases h
    exact hbreak
  simp only [step, schedulerTick, hsession, hfast, hslow, hdebug, hresume, Bool.not_true, Bool.or_self,
    Bool.false_eq_true, if_false]
  split
  · rfl
  · next heq => rw [haddr heq, if_neg Bool.false_ne_true]

/-- The work of a tick of a core that is not idle is a pipeline cycle and the settling of the budget. -/
theorem State.work_of_running {s t : State} (hidle : s.cur.idleState = .running)
    (h : s.beginTick.pipelineCycle = .next t) : s.work = .next t.settle := by
  have hbegin : s.beginTick.cur.idleState = .running := by rw [State.beginTick_cur, hidle]
  simp only [State.work, hbegin, h, if_true]

/-- Settles O5: no guard stops the tick, and the start of the tick, fetch and decode leave the executing slot alone. -/
theorem stepRunsDecoded : Obligations.StepRunsDecoded := by
  unfold Obligations.StepRunsDecoded
  intro s i hsession hfast hslow hdebug hresume hbreak hidle hword htag
  have hslot : s.beginTick.cur.execSlot = s.cur.execSlot := by
    rw [State.beginTick_cur]
    rfl
  have hexec : s.beginTick.frontEnd.recordDispatch.executeSlot = exec i s.beginTick.frontEnd.recordDispatch := by
    apply State.executeSlot_of_decoded
    · rw [State.recordDispatch_turn, State.recordDispatch_cpsr, State.recordDispatch_execSlot, State.frontEnd_turn,
        State.frontEnd_cpsr, State.frontEnd_execSlot, State.beginTick_turn, hslot, State.beginTick_cur, hword]
    · rw [State.recordDispatch_execSlot, State.frontEnd_execSlot, hslot, htag]
  obtain ⟨t, ht⟩ := exec_next i s.beginTick.frontEnd.recordDispatch
  rw [ht] at hexec
  have hcycle := State.pipelineCycle_of_decoded (by rw [hslot, Slot.decoded_of_instr htag]) hexec
  rw [ht, step_of_unguarded hsession hfast hslow hdebug hresume hbreak, State.work_of_running hidle hcycle]

/-! ## The refill after a flush -/

/-- `t` is `s` after a cycle that filled: the slots are those after fetch and decode, r15 and the pointer have advanced,
and nothing else that the refill reads has changed (41_pipeline.md R142, R148, R160). -/
structure State.Filled (s t : State) : Prop where
  turn : t.turn = s.turn
  mem : t.mem = s.mem
  regs : t.cur.regs = s.cur.regs.set .r15 (s.cur.regs.r15 + s.cur.width)
  cpsr : t.cur.cpsr = s.cur.cpsr
  ptr : t.cur.ptr = s.cur.ptr + 1
  needsFlush : t.cur.needsFlush = false
  dbgTag : t.cur.dbgTag = .FILLING
  slot : ∀ j, t.cur.slot j = s.frontEnd.cur.slot j

/-- A cycle on an executing slot that is not decoded, without a flush requested. -/
theorem State.pipelineCycle_filled {s : State} (h : s.cur.execSlot.decoded = false) (hflush : s.cur.needsFlush = false) :
    ∃ t, s.pipelineCycle = .next t ∧ s.Filled t := by
  have hcur : (s.frontEnd.fillStage.onCur CoreState.endCycle).cur = (CoreState.charge
      { s.frontEnd.cur with dbgTag := .FILLING, dbgOperand := 0#32 } (s.cfg.tickCycles s.turn .fill)).updatePc := by
    rw [State.onCur_cur, State.fillStage, State.onCur_cur, CoreState.endCycle, if_neg]
    · rfl
    · rw [CoreState.charge_needsFlush, State.frontEnd_needsFlush, hflush]
      exact Bool.false_ne_true
  refine ⟨_, State.pipelineCycle_of_filling h, rfl, rfl, ?regs, ?cpsr, ?ptr, ?flush, ?dbg, fun j => ?slot⟩ <;> rw [hcur]
  case regs =>
    show s.frontEnd.cur.regs.set .r15 (s.frontEnd.cur.regs.r15 + s.frontEnd.cur.width) = _
    simp only [CoreState.width, State.frontEnd_regs, State.frontEnd_cpsr]
  case cpsr => exact s.frontEnd_cpsr
  case ptr => exact congrArg (· + 1) s.frontEnd_ptr
  case flush => exact s.frontEnd_needsFlush.trans hflush
  case dbg => rfl
  case slot =>
    rw [CoreState.slot_updatePc]
    rfl

/-- The slot that decode worked on is the next to execute. -/
theorem State.Filled.execSlot {s t : State} (h : s.Filled t) :
    t.cur.execSlot = (s.cur.slot s.cur.decodeIdx).afterDecode s.turn (psrT s.cur.cpsr) := by
  have hidx : t.cur.execIdx = s.cur.decodeIdx := by
    rw [CoreState.execIdx, h.ptr, CoreState.decodeIdx, add_assoc]
    rfl
  rw [CoreState.execSlot, hidx, h.slot, State.frontEnd_slot_decodeIdx]

/-- The slot that fetch filled is the next to decode. -/
theorem State.Filled.slot_decodeIdx {s t : State} (h : s.Filled t) : t.cur.slot t.cur.decodeIdx = s.fetchedSlot := by
  have hnext : ∀ p : Fin 3, p + 1 + 2 = p := by decide
  have hidx : t.cur.decodeIdx = s.cur.ptr := by rw [CoreState.decodeIdx, h.ptr, hnext]
  rw [hidx, h.slot, State.frontEnd_slot_ptr]

/-- The instruction width stays, and r15 advances by it. -/
theorem State.Filled.width {s t : State} (h : s.Filled t) : t.cur.width = s.cur.width := by
  rw [CoreState.width, h.cpsr, CoreState.width]

theorem State.Filled.r15 {s t : State} (h : s.Filled t) : t.cur.regs.r15 = s.cur.regs.r15 + s.cur.width := by
  rw [h.regs]
  rfl

theorem State.Filled.regs_ne {s t : State} (h : s.Filled t) {p : PhysReg} (hp : p ≠ .r15) :
    t.cur.regs.get p = s.cur.regs.get p := by
  rw [h.regs, RegFile.get_set_ne _ _ hp]

/-- The word at an address, as the halfwords of the statements give it. -/
theorem State.memLoad_word (s : State) (a : Word) : memLoad s.mem a .word = s.word a := by
  have h3 : a + 2#32 + 1#32 = a + 3#32 := by rw [BitVec.add_assoc]; rfl
  simp only [memLoad, State.word, State.half, State.byte, h3]
  exact BitVec.append_assoc

/-- The fetched word: a halfword in Thumb state, a word in ARM state, at r15 aligned down (20_memory.md R71). -/
theorem State.fetchedSlot_word (s : State) :
    s.fetchedSlot.word =
      if psrT s.cur.cpsr then (s.half (s.cur.regs.r15 &&& ~~~1#32)).setWidth 32
      else s.word (s.cur.regs.r15 &&& ~~~3#32) := by
  unfold State.fetchedSlot CoreState.fetchAccess
  split
  · rfl
  · exact s.memLoad_word _

/-- Settles O7: the first cycle fetches the word, the second decodes it, and the third executes on its slot; r15 has
advanced by two widths by then. -/
theorem fetchReachesExecute : Obligations.FetchReachesExecute := by
  unfold Obligations.FetchReachesExecute
  intro s _ hempty hflush
  have hfirst : s.cur.execSlot = Slot.empty := hempty _
  obtain ⟨s1, hs1, h1⟩ := State.pipelineCycle_filled (s := s) (by rw [hfirst]; rfl) hflush
  have hsecond : s1.cur.execSlot = Slot.empty := by
    rw [h1.execSlot, hempty]
    rfl
  obtain ⟨s2, hs2, h2⟩ := State.pipelineCycle_filled (s := s1) (by rw [hsecond]; rfl) h1.needsFlush
  have hslot : s2.frontEnd.cur.execSlot =
      { s.fetchedSlot with tag := decodeTag s.turn (psrT s.cur.cpsr) s.fetchedSlot.word } := by
    rw [State.frontEnd_execSlot, h2.execSlot, h1.slot_decodeIdx, h1.turn, h1.cpsr]
    rfl
  have haddr : s2.frontEnd.cur.instrAddr = s.cur.regs.r15 := by
    rw [State.frontEnd_instrAddr, CoreState.instrAddr, h2.r15, h2.width, h1.r15, h1.width]
    bv_omega
  refine ⟨s1, s2, hs1, hs2, h1.dbgTag, h2.dbgTag, ?_⟩
  rw [← State.fetchedSlot_word]
  refine ⟨by rw [hslot], by rw [hslot], haddr, ?cpsr, fun a => ?mem, fun p hp => ?regs⟩
  case cpsr => rw [State.frontEnd_cpsr, h2.cpsr, h1.cpsr]
  case mem => rw [State.frontEnd_mem, h2.mem, h1.mem]
  case regs => rw [State.frontEnd_regs, h2.regs_ne hp, h1.regs_ne hp]

end Sys2Proof.Machine
end

section
/-! CERTIFICATE. Data processing beyond the plain write: the compares, and the writes of r15. -/

namespace Sys2Proof

open Machine

/-- A compare leaves the flags, and everything else as it was. -/
theorem Alu.rule_of_compare {x : Alu} (hdest : x.dest = none) (k : CoreId) (c : CoreState) :
    x.rule k c = .done (c.updated c.regs ((x.result c.cpsr).2 &&& psrMask k) c.needsFlush) := by
  simp only [Alu.rule, hdest]
  rfl

/-- Settles O38: the rule of the instruction is the one of its computation, which updates the flags alone. -/
theorem comparesSetFlags : Obligations.ComparesSetFlags := by
  unfold Obligations.ComparesSetFlags
  intro i s x hx hdest h
  obtain ⟨f, hexec, hrule⟩ := exec_alu hx h
  rw [Alu.rule_of_compare hdest] at hrule
  obtain ⟨-, -, -, hstaged⟩ := h
  obtain ⟨hframe, hacc, hflush, hregs, hcpsr⟩ := State.perform_updated (w := .load) (onCore_done hrule) hstaged
  exact ⟨_, hexec, hframe, hacc, hflush, fun p _ => by rw [hregs], hcpsr⟩

/-! ## Writes of r15 -/

/-- The status word in force after a computation into r15: the saved one with S, the live one without
(42_arm_dataproc.md R174). -/
def Alu.pcStatus (x : Alu) (c : CoreState) : Word := if x.flags then c.getSpsr else c.cpsr

/-- A computation into r15: a branch in the current state without S, an exception return with S. -/
theorem Alu.rule_into_pc {x : Alu} {c : CoreState} (hdest : x.dest = some .r15) (k : CoreId)
    (hlegal : x.flags = false ∨ psrLegal c.getSpsr = true) :
    x.rule k c = .done (c.updated { c.regs with r15 := alignTarget (psrT (x.pcStatus c)) (x.result c.cpsr).1 }
      (if x.flags then c.getSpsr &&& psrMask k else c.cpsr) true) := by
  simp only [Alu.rule, hdest, dpWrite, Alu.pcStatus]
  cases hflags : x.flags with
  | false => rfl
  | true =>
    rw [hflags, Bool.true_eq_false, false_or] at hlegal
    obtain ⟨-, hreturn⟩ | ⟨hillegal, -⟩ := c.exceptionReturn_cases k c.instrAddr (x.result c.cpsr).1
    · simp only [ne_eq, not_true_eq_false, if_true, if_false, hreturn]
      rw [CoreState.writePc, CoreState.alignPc, CoreState.setCpsr_cpsr, psrT_mask]
      rfl
    · cases hlegal.symm.trans hillegal

/-- A computation with S into r15 under an illegal saved status word stops and changes nothing. -/
theorem Alu.rule_illegal {x : Alu} {c : CoreState} (hdest : x.dest = some .r15) (hflags : x.flags = true)
    (hillegal : psrLegal c.getSpsr = false) (k : CoreId) :
    x.rule k c = .stop ⟨.illegalMode, c.getSpsr, c.instrAddr⟩ c := by
  obtain ⟨hlegal, -⟩ | ⟨-, hstop⟩ := c.exceptionReturn_cases k c.instrAddr (x.result c.cpsr).1
  · cases hlegal.symm.trans hillegal
  · simp only [Alu.rule, hdest, dpWrite, hflags]
    exact hstop

/-- An instruction that computes into r15 and does not stop: the frame, the whole status word, and the target. -/
theorem exec_alu_into_pc {i : Instr} {s : State} {x : Alu} (hx : i.alu? s.cur = some x) (hdest : x.dest = some .r15)
    (h : Runs i s) (hlegal : x.flags = false ∨ psrLegal s.cur.getSpsr = true) :
    ∃ t, exec i s = .next t ∧ Frame s t ∧ NoAccess s t ∧ t.cur.needsFlush = true
      ∧ t.cur.cpsr = (if x.flags then s.cur.getSpsr &&& psrMask s.turn else s.cur.cpsr)
      ∧ t.cur.regs.r15 = alignTarget (psrT (x.pcStatus s.cur)) (x.result s.cur.cpsr).1
      ∧ RegsSame (fun p => p = .r15) s t := by
  obtain ⟨f, hexec, hrule⟩ := exec_alu hx h
  rw [Alu.rule_into_pc hdest s.turn hlegal] at hrule
  obtain ⟨-, -, -, hstaged⟩ := h
  obtain ⟨hframe, hacc, hflush, hregs, hcpsr⟩ := State.perform_updated (w := .load) (onCore_done hrule) hstaged
  refine ⟨_, hexec, hframe, hacc, hflush, hcpsr, by rw [hregs], fun p hp => ?_⟩
  rw [hregs]
  exact RegFile.get_set_ne s.cur.regs _ hp

/-- Settles O39: by whether S is set and, if it is, whether the saved status word names a legal mode. -/
theorem dataProcessingIntoPc : Obligations.DataProcessingIntoPc := by
  unfold Obligations.DataProcessingIntoPc
  intro i s x hx hdest h
  refine ⟨fun hlegal => ?_, fun hflags hillegal => ?_⟩
  · obtain ⟨t, hexec, hframe, hacc, hflush, hcpsr, hpc, hregs⟩ := exec_alu_into_pc hx hdest h hlegal
    refine ⟨t, hexec, hframe, hacc, hflush, ?_, hpc, hregs⟩
    rw [hcpsr]
    cases x.flags with
    | false => rfl
    | true => exact psrMask_mask _ _
  · obtain ⟨f, hexec, hrule⟩ := exec_alu hx h
    rw [Alu.rule_illegal hdest hflags hillegal] at hrule
    refine ⟨_, hexec, ?_⟩
    rw [State.perform_of_stop (onCore_stop hrule), State.setCur_self]
    rfl

end Sys2Proof
end

section
/-! CERTIFICATE. The return from an interrupt: what the entry saves is what SUBS pc, r14, #4 restores. -/

namespace Sys2Proof.Machine

/-- A status word without reserved bits is stored whole. -/
theorem and_psrMask_of_clean {k : CoreId} {w : Word} (h : PsrClean k w) : w &&& psrMask k = w := by
  calc w &&& psrMask k = w &&& psrMask k ||| w &&& ~~~psrMask k := by rw [h, BitVec.or_zero]
    _ = w &&& (psrMask k ||| ~~~psrMask k) := BitVec.and_or_distrib_left.symm
    _ = w := by rw [BitVec.or_not_self, BitVec.and_allOnes]

/-! ## The core after an exception entry -/

@[simp] theorem psrT_psrSetF (w : Word) (b : Bool) : psrT (psrSetF w b) = psrT w := by
  rw [psrT, psrSetF, getLsbD_putBit, if_neg (by decide)]
  rfl

/-- An exception entry goes to ARM state. -/
theorem CoreState.enterException_psrT (c : CoreState) (k : CoreId) (vb : Word) (m : Mode) (o lr : Word) (f : Bool) :
    psrT (c.enterException k vb m o lr f).cpsr = false := by
  rw [CoreState.enterException_cpsr]
  cases f <;> simp

/-- The mode in force after an exception entry. -/
theorem CoreState.enterException_mode (c : CoreState) (k : CoreId) (vb : Word) (m : Mode) (o lr : Word) (f : Bool) :
    (c.enterException k vb m o lr f).mode = m := by
  refine CoreState.mode_of_psrMode? ?_
  rw [CoreState.enterException_cpsr]
  cases f <;> simp [psrMode?]

/-- The link register that an exception entry leaves, as an ARM instruction reads it. -/
theorem CoreState.enterException_armReg_r14 (c : CoreState) (k : CoreId) (vb : Word) (m : Mode) (o lr : Word)
    (f : Bool) : (c.enterException k vb m o lr f).armReg .r14 = lr := by
  have hpc : phys .r14 m ≠ .r15 := fun h => absurd (phys_eq_r15.mp h) (by decide)
  rw [CoreState.armReg, if_neg (by decide), CoreState.enterException_mode,
    CoreState.enterException_get _ _ _ _ _ _ _ _ hpc, if_pos rfl]

/-- The current saved status word after an exception entry from a clean cpsr is that cpsr. -/
theorem CoreState.enterException_getSpsr {c : CoreState} {k : CoreId} (hclean : PsrClean k c.cpsr) (vb : Word)
    {m : Mode} (o lr : Word) (f : Bool) (husr : m ≠ .usr) (hsys : m ≠ .sys) :
    (c.enterException k vb m o lr f).getSpsr = c.cpsr := by
  rw [CoreState.getSpsr, CoreState.enterException_mode, CoreState.enterException_spsrOf _ _ _ _ _ _ _ husr hsys,
    and_psrMask_of_clean hclean]

/-! ## The return -/

/-- SUBS pc, r14, #4. -/
def irqReturn : Instr := .subImm .al true .r14 .r15 0#4 4#8

/-- SUBS pc, r14, #4 runs in ARM state with nothing staged. -/
theorem runs_irqReturn {s : State} (harm : psrT s.cur.cpsr = false) (hstaged : s.cur.execSlot.rmask = 0#16) :
    Runs irqReturn s :=
  have hrec : ∀ k, irqReturn.recognizedOn k = true := fun k => by cases k <;> rfl
  ⟨harm.symm, hrec s.turn, rfl, hstaged⟩

/-- SUBS pc, r14, #4 under a legal saved status word: that word into cpsr, and r14 - 4, aligned to its state, into
r15. -/
theorem exec_irqReturn {s : State} (harm : psrT s.cur.cpsr = false) (hstaged : s.cur.execSlot.rmask = 0#16)
    (hlegal : psrLegal s.cur.getSpsr = true) :
    ∃ t, exec irqReturn s = .next t ∧ Frame s t ∧ NoAccess s t ∧ t.cur.needsFlush = true
      ∧ t.cur.cpsr = s.cur.getSpsr &&& psrMask s.turn
      ∧ t.cur.regs.r15 = alignTarget (psrT s.cur.getSpsr) (s.cur.armReg .r14 - 4#32)
      ∧ RegsSame (fun p => p = .r15) s t :=
  exec_alu_into_pc (x := aluArm s.cur .sub true .r14 .r15 (.imm 0#4 4#8)) rfl rfl (runs_irqReturn harm hstaged)
    (.inr hlegal)

/-- The interrupt dispatch with an interrupt pending. -/
theorem State.irqDispatch_of_pending {s : State} (h : s.irqPending = true) :
    s.irqDispatch = s.setCur
      (s.cur.enterException s.turn (s.cfg.vbase.get s.turn) .irq 0x18#32 (s.cur.nextInstr + 4#32) false) :=
  if_pos h

/-- The registers an interrupt entry leaves alone. -/
theorem CoreState.enterException_irq_get (c : CoreState) (k : CoreId) (vb o lr : Word) (f : Bool) {p : PhysReg}
    (hp : ¬(p = .r15 ∨ p = .r14Irq)) : (c.enterException k vb .irq o lr f).regs.get p = c.regs.get p := by
  obtain ⟨hpc, hlr⟩ := not_or.mp hp
  rw [CoreState.enterException_get _ _ _ _ _ _ _ _ hpc]
  exact if_neg hlr

/-- Settles O25: the entry leaves NIA + 4 in r14 and the old cpsr in the spsr of its mode, and the instruction is an
exception return from them. -/
theorem irqThenReturn : Obligations.IrqThenReturn := by
  unfold Obligations.IrqThenReturn
  intro s hpending hinv hstaged
  obtain ⟨hlegal, hclean, -⟩ := hinv
  rw [State.irqDispatch_of_pending hpending]
  generalize hc : s.cur.enterException s.turn (s.cfg.vbase.get s.turn) .irq 0x18#32 (s.cur.nextInstr + 4#32) false = c
  have harm : psrT c.cpsr = false := hc ▸ CoreState.enterException_psrT ..
  have hlink : c.armReg .r14 = s.cur.nextInstr + 4#32 := hc ▸ CoreState.enterException_armReg_r14 ..
  have hspsr : c.getSpsr = s.cur.cpsr :=
    hc ▸ CoreState.enterException_getSpsr hclean _ _ _ _ (by decide) (by decide)
  have hslot : c.execSlot = s.cur.execSlot :=
    hc ▸ CoreState.execSlot_congr (by simp) (by simp) (by simp) (by simp)
  have hreturn := exec_irqReturn (s := s.setCur c)
  rw [State.setCur_cur, hspsr, hslot, hlink, BitVec.add_sub_cancel, State.setCur_turn,
    and_psrMask_of_clean hclean] at hreturn
  obtain ⟨t, hexec, -, hacc, hflush, hcpsr, hpc, hsame⟩ := hreturn harm hstaged hlegal
  refine ⟨t, hexec, hcpsr, hflush, hpc, fun p hp => ?_, hacc⟩
  rw [hsame p (not_or.mp hp).1, State.setCur_cur, ← hc, CoreState.enterException_irq_get _ _ _ _ _ _ hp]

end Sys2Proof.Machine
end

section
/-! CERTIFICATE. CLZ, and the instructions that write one register and nothing else. -/

namespace Sys2Proof.Machine

/-- Settles O34: the highest set bit is at the binary logarithm. -/
theorem leadingZerosCounts : Obligations.LeadingZerosCounts := by
  unfold Obligations.LeadingZerosCounts
  refine fun v => ⟨rfl, fun hv => ?_⟩
  have hpos : v.toNat ≠ 0 := fun h => hv (BitVec.eq_of_toNat_eq h)
  have hlog : v.toNat.log2 < 32 := (Nat.log2_lt hpos).mpr v.isLt
  have hcount : leadingZeros v = 31 - v.toNat.log2 := if_neg hv
  have hhigh : 31 - leadingZeros v = v.toNat.log2 := by omega
  rw [hhigh]
  refine ⟨by omega, Nat.testBit_log2 hpos, fun j hj => Nat.testBit_lt_two_pow ?_⟩
  exact Nat.lt_log2_self.trans_le (Nat.pow_le_pow_right (by decide) hj)

/-! ## Constants of the Thumb forms -/

/-- In Thumb state r15 reads as A + 4. -/
theorem CoreState.reg_r15_of_thumb {c : CoreState} (h : psrT c.cpsr = true) : c.reg .r15 = c.instrAddr + 4#32 := by
  rw [CoreState.instrAddr, CoreState.width, if_pos h]
  exact (BitVec.sub_add_cancel _ 4#32).symm

/-- The scaled immediates of formats 12 and 13: four times the field (30_encoding.md R92). -/
theorem ofNat_four_mul_toNat {n : Nat} (imm : BitVec n) :
    BitVec.ofNat 32 (4 * imm.toNat) = imm.setWidth 32 <<< 2 := by
  apply BitVec.eq_of_toNat_eq
  simp [Nat.shiftLeft_eq, Nat.mul_comm]

/-- The first half of a long branch adds a signed multiple of 4096. -/
theorem ofInt_mul_eq_blPrefixOffset (off : BitVec 11) :
    BitVec.ofInt 32 (off.toInt * 4096) = blPrefixOffset off := by
  rw [blPrefixOffset, BitVec.shiftLeft_eq_mul_twoPow, BitVec.ofInt_mul]
  rfl

/-! ## The instructions -/

/-- No plain write that a core recognizes has r15 as its destination. -/
theorem write_dest_ne_r15 {i : Instr} {c : CoreState} {rd : Reg} {v : Word} (hw : i.write? c = some (rd, v))
    (h : i.unpredictable = false) : rd ≠ .r15 := by
  cases i with
  | mrs | clz | smulwY | smulXY =>
    cases hw
    simp only [Instr.unpredictable, Bool.or_eq_false_iff, beq_eq_false_iff_ne] at h
    tauto
  | tAddHi | tMovHi =>
    simp only [Instr.write?] at hw
    split at hw <;> cases hw
    assumption
  | tAddPc d | tAddSp d =>
    cases hw
    exact loReg_ne_r15 d
  | tIncSp | tDecSp | tBlPrefix =>
    cases hw
    decide
  | _ => nomatch hw

/-- Each plain write that runs performs a rule that sets its register to the value of the statements. -/
theorem exec_write {i : Instr} {s : State} {rd : Reg} {v : Word} (hw : i.write? s.cur = some (rd, v))
    (h : Runs i s) :
    ∃ f : CoreRule, exec i s = .next (s.perform .load (onCore f)) ∧ f s.turn s.cur = .done (s.cur.setReg rd v) := by
  have ⟨hstate, _⟩ := h
  cases i with
  | mrs | clz =>
    cases hw
    exact ⟨_, runCond_of_runs h rfl, rfl⟩
  | smulwY _ y _ rs rm =>
    cases hw
    refine ⟨smulwRule y rd rs rm, runCond_of_runs h rfl, ?_⟩
    simp only [smulwRule, wideProduct, signedHalf_eq_halfword]
    rfl
  | smulXY _ x y _ rs rm =>
    cases hw
    refine ⟨smulRule x y rd rs rm, runCond_of_runs h rfl, ?_⟩
    simp only [smulRule, signedHalf_eq_halfword]
  | tAddHi | tMovHi =>
    simp only [Instr.write?] at hw
    split at hw <;> cases hw
    exact ⟨_, runAlways_of_runs h, rfl⟩
  | tAddPc | tAddSp | tIncSp | tDecSp =>
    cases hw
    rw [ofNat_four_mul_toNat]
    exact ⟨_, runAlways_of_runs h, rfl⟩
  | tBlPrefix =>
    cases hw
    rw [ofInt_mul_eq_blPrefixOffset, ← CoreState.reg_r15_of_thumb hstate.symm]
    exact ⟨_, runAlways_of_runs h, rfl⟩
  | _ => nomatch hw

/-- Settles O40: the rule of the instruction sets one register other than r15. -/
theorem plainWrites : Obligations.PlainWrites := by
  unfold Obligations.PlainWrites
  intro i s rd v hw h
  have hrd : rd ≠ .r15 := write_dest_ne_r15 hw (unpredictable_of_runs h)
  obtain ⟨f, hexec, hrule⟩ := exec_write hw h
  rw [CoreState.setReg_regs_of_ne _ v hrd] at hrule
  obtain ⟨-, -, -, hstaged⟩ := h
  obtain ⟨hframe, hacc, hflush, hregs, hcpsr⟩ := State.perform_updated (w := .load) (onCore_done hrule) hstaged
  refine ⟨_, hexec, hframe, hacc, hflush, ?_, fun p hp => ?_, hcpsr⟩
  · rw [hregs]
    exact RegFile.get_set_self _ _ _
  · rw [hregs]
    exact RegFile.get_set_ne _ _ hp

end Sys2Proof.Machine
end

section
/-! CERTIFICATE. The instructions that do nothing: PLD, and the Thumb branch that is not taken. -/

namespace Sys2Proof.Machine

/-- Each instruction of the statement that runs performs a rule that leaves the machine as it is. -/
theorem exec_idle {i : Instr} {s : State} (hi : i.idleOn s.cur) (h : Runs i s) :
    ∃ r : Rule, exec i s = .next (s.perform .load r) ∧ r s.turn s = .done (s.setCur s.cur) := by
  cases i with
  | pld regOff up rn off =>
    have ⟨_, hrec, _⟩ := h
    refine ⟨fun _ s => .done s, ?_, by rw [State.setCur_self]⟩
    change runFastUncond _ _ s = _
    cases hturn : s.turn with
    | fast =>
      rw [runFastUncond, hturn]
      exact runAlways_of_runs h
    | slow =>
      rw [hturn] at hrec
      cases hrec
  | tBCond cond off =>
    refine ⟨onCore (thumbCondRule cond (thumbCondOffset off)), runAlways_of_runs h, onCore_done ?_⟩
    have hfails : checkCondition cond s.cur.cpsr = false := hi
    simp [thumbCondRule, hfails]
  | _ => cases hi

/-- Settles O56: the rule leaves the core as it is. -/
theorem noEffect : Obligations.NoEffect := by
  unfold Obligations.NoEffect
  intro i s hi h
  obtain ⟨r, hexec, hrule⟩ := exec_idle hi h
  obtain ⟨-, -, -, hstaged⟩ := h
  obtain ⟨hframe, hacc, hflush, hregs, hcpsr⟩ := State.perform_updated (w := .load) (regs := s.cur.regs)
    (cpsr := s.cur.cpsr) (flush := s.cur.needsFlush) hrule hstaged
  exact ⟨_, hexec, hframe, hacc, hflush, fun p _ => by rw [hregs], hcpsr⟩

end Sys2Proof.Machine
end

section
/-! SUPPORT. Transfers between registers and memory: what an instruction has done when its writeback stage begins, and
what that stage makes of the staged registers (41_pipeline.md R153 to R155). -/

namespace Sys2Proof.Machine

/-! ## The core before the writeback stage -/

/-- `d` is `c` with other general registers and other scratch lists in its slots. -/
def CoreState.DataOnly (c d : CoreState) : Prop :=
  d = { c with regs := d.regs, slot0 := d.slot0, slot1 := d.slot1, slot2 := d.slot2 }
    ∧ ∀ j, (d.slot j).word = (c.slot j).word ∧ (d.slot j).tag = (c.slot j).tag

theorem CoreState.DataOnly.refl (c : CoreState) : c.DataOnly c := ⟨rfl, fun _ => ⟨rfl, rfl⟩⟩

theorem CoreState.DataOnly.trans {b c d : CoreState} (hbc : b.DataOnly c) (hcd : c.DataOnly d) : b.DataOnly d := by
  obtain ⟨hc, hcSlots⟩ := hbc
  obtain ⟨hd, hdSlots⟩ := hcd
  refine ⟨?_, fun j => ⟨(hdSlots j).1.trans (hcSlots j).1, (hdSlots j).2.trans (hcSlots j).2⟩⟩
  rw [hc] at hd
  exact hd

/-- Other scratch lists in the executing slot. -/
theorem CoreState.DataOnly.setExecSlot (c : CoreState) {sl : Slot} (hword : sl.word = c.execSlot.word)
    (htag : sl.tag = c.execSlot.tag) : c.DataOnly (c.setExecSlot sl) := by
  obtain ⟨hd, hslots⟩ := c.scratchOnly_setExecSlot hword htag
  refine ⟨?_, hslots⟩
  rw [CoreState.setExecSlot_regs]
  exact hd

theorem CoreState.DataOnly.stage (c : CoreState) (i : Reg) (p : PhysReg) (addr v : Word) :
    c.DataOnly (c.stage i p addr v) := .setExecSlot c rfl rfl

theorem CoreState.DataOnly.recordAddr (c : CoreState) (i : Reg) (addr : Word) : c.DataOnly (c.recordAddr i addr) :=
  .setExecSlot c rfl rfl

theorem CoreState.DataOnly.accessMem (c : CoreState) : c.DataOnly c.accessMem := .setExecSlot c rfl rfl

theorem CoreState.DataOnly.clearStaged (c : CoreState) : c.DataOnly c.clearStaged := .setExecSlot c rfl rfl

theorem CoreState.DataOnly.setReg (c : CoreState) {i : Reg} (v : Word) (h : i ≠ .r15) : c.DataOnly (c.setReg i v) := by
  rw [CoreState.setReg_regs_of_ne c v h]
  exact ⟨rfl, fun _ => ⟨rfl, rfl⟩⟩

theorem CoreState.DataOnly.cpsr {c d : CoreState} (h : c.DataOnly d) : d.cpsr = c.cpsr := by rw [h.1]

theorem CoreState.DataOnly.needsFlush {c d : CoreState} (h : c.DataOnly d) : d.needsFlush = c.needsFlush := by rw [h.1]

theorem CoreState.DataOnly.getSpsr {c d : CoreState} (h : c.DataOnly d) : d.getSpsr = c.getSpsr := by
  rw [h.1]
  rfl

theorem CoreState.DataOnly.mode {c d : CoreState} (h : c.DataOnly d) : d.mode = c.mode := by
  rw [CoreState.mode, h.cpsr, CoreState.mode]

/-! ## What is staged -/

/-- Staged registers: their numbers, the mode whose bank they go to, and their values. -/
structure Staging where
  has : Reg → Prop
  bank : Mode
  value : Reg → Word

/-- Nothing staged. -/
def Staging.empty (m : Mode) : Staging := ⟨fun _ => False, m, fun _ => 0#32⟩

/-- One more register staged, which overrides an earlier value. -/
def Staging.add (g : Staging) (i : Reg) (v : Word) : Staging :=
  ⟨fun j => j = i ∨ g.has j, g.bank, fun j => if j = i then v else g.value j⟩

/-- The scratch lists of a slot hold what is staged, and no register besides. -/
structure Slot.Holds (sl : Slot) (g : Staging) : Prop where
  staged : ∀ i, sl.staged i = true ↔ g.has i
  value : ∀ i, g.has i → sl.rval.get i = g.value i
  target : ∀ i, g.has i → sl.rphys.get i = phys i g.bank

/-- The bitmap, the values and the targets alone count. -/
theorem Slot.Holds.of_eq {sl sl' : Slot} {g : Staging} (h : sl.Holds g) (hmask : sl'.rmask = sl.rmask)
    (hval : sl'.rval = sl.rval) (hphys : sl'.rphys = sl.rphys) : sl'.Holds g where
  staged i := by
    rw [Slot.staged, hmask]
    exact h.staged i
  value i hi := by rw [hval, h.value i hi]
  target i hi := by rw [hphys, h.target i hi]

/-- The values of registers that are not staged do not count. -/
theorem Slot.Holds.congr {sl : Slot} {g g' : Staging} (h : sl.Holds g) (hbank : g'.bank = g.bank)
    (hhas : ∀ i, g'.has i ↔ g.has i) (hvalue : ∀ i, g'.has i → g'.value i = g.value i) : sl.Holds g' where
  staged i := (h.staged i).trans (hhas i).symm
  value i hi := (h.value i ((hhas i).mp hi)).trans (hvalue i hi).symm
  target i hi := by rw [hbank, h.target i ((hhas i).mp hi)]

/-- An empty bitmap holds nothing. -/
theorem Slot.Holds.empty {sl : Slot} (h : sl.rmask = 0#16) (m : Mode) : sl.Holds (.empty m) where
  staged i := by
    rw [Slot.staged_of_empty h]
    exact ⟨Bool.noConfusion, False.elim⟩
  value _ hi := hi.elim
  target _ hi := hi.elim

/-- Staging a register. -/
theorem Slot.Holds.stage {c : CoreState} {g : Staging} (h : c.execSlot.Holds g) (i : Reg) (addr v : Word) :
    (c.stage i (phys i g.bank) addr v).execSlot.Holds (g.add i v) where
  staged j := by
    rw [CoreState.execSlot_stage]
    change Slot.staged { c.execSlot with rmask := c.execSlot.rmask ||| (1#16 <<< regNumber i) } j = true ↔ _
    rw [Slot.staged_or, Bool.or_eq_true, decide_eq_true_eq, h.staged, or_comm]
    exact Iff.rfl
  value j hj := by
    rw [CoreState.execSlot_stage]
    change (c.execSlot.rval.set i v).get j = if j = i then v else g.value j
    split
    · next hji => rw [hji, RegMap.get_set_self]
    · next hji => rw [RegMap.get_set_ne _ _ hji, h.value j (hj.resolve_left hji)]
  target j hj := by
    rw [CoreState.execSlot_stage]
    change (c.execSlot.rphys.set i (phys i g.bank)).get j = phys j g.bank
    by_cases hji : j = i
    · rw [hji, RegMap.get_set_self]
    · rw [RegMap.get_set_ne _ _ hji, h.target j (hj.resolve_left hji)]

/-! ## The commit of the staged registers -/

/-- The register file after the commit of the staged registers but r15. -/
def CoreState.committed (c : CoreState) : RegFile := allRegs.foldl (commitOne c.execSlot) c.regs

/-- The commit leaves a register alone that no staged register names. -/
theorem foldl_commitOne_get_of_ne {sl : Slot} {g : Staging} (h : sl.Holds g) {p : PhysReg} (l : List Reg) (f : RegFile)
    (hp : ∀ i ∈ l, g.has i → i ≠ .r15 → p ≠ phys i g.bank) : (l.foldl (commitOne sl) f).get p = f.get p := by
  induction l generalizing f with
  | nil => rfl
  | cons i rest ih =>
    rw [List.foldl_cons, ih _ fun j hj => hp j (.tail _ hj), commitOne]
    split
    · next hi =>
      obtain ⟨hpc, hstaged⟩ := hi
      have hhas := (h.staged i).mp hstaged
      rw [h.target i hhas, RegFile.get_set_ne _ _ (hp i (.head _) hhas hpc)]
    · rfl

/-- The commit of a list of registers gives each staged one its value. -/
theorem foldl_commitOne_get {sl : Slot} {g : Staging} (h : sl.Holds g) {i : Reg} (hi : g.has i) (hpc : i ≠ .r15)
    {l : List Reg} (hl : i ∈ l) (f : RegFile) : (l.foldl (commitOne sl) f).get (phys i g.bank) = g.value i := by
  induction l generalizing f with
  | nil => cases hl
  | cons j rest ih =>
    rw [List.foldl_cons]
    by_cases hrest : i ∈ rest
    · exact ih hrest _
    · obtain rfl : i = j := by simpa [hrest] using hl
      rw [foldl_commitOne_get_of_ne h, commitOne, if_pos ⟨hpc, (h.staged i).mpr hi⟩, h.target i hi, h.value i hi,
        RegFile.get_set_self]
      intro k hk _ _ heq
      exact hrest (phys_inj.mp heq ▸ hk)

/-- The commit does not write r15. -/
theorem CoreState.committed_r15 {c : CoreState} {g : Staging} (h : c.execSlot.Holds g) : c.committed.r15 = c.regs.r15 :=
  foldl_commitOne_get_of_ne h (p := .r15) allRegs c.regs fun _ _ _ hpc heq => hpc (phys_eq_r15.mp heq.symm)

/-! ## The machine before the writeback stage -/

/-- The machine with another state of the core that holds the turn, another memory and another record of accesses. -/
def State.setData (s : State) (d : CoreState) (m : List Host.Cell) (tr : List Access) : State :=
  { s with cores := s.cores.set s.turn d, mem := m, traffic := tr }

theorem State.setData_setData (s : State) (d e : CoreState) (m m' : List Host.Cell) (tr tr' : List Access) :
    (s.setData d m tr).setData e m' tr' = s.setData e m' tr' := by
  show ({ s with cores := (s.cores.set s.turn d).set s.turn e, mem := m', traffic := tr' } : State) = _
  rw [PerCore.set_set]
  rfl

/-- A write-back of the base, if there is one (43_arm_loadstore.md R216, R238). -/
def State.applyWb (s : State) : Option (Reg × Word) → State
  | none => s
  | some (r, v) => s.onCur fun c => c.setReg r v

/-- Between `s` and `u` an instruction has staged `g` and written back `wb`; nothing else has changed but memory, the
record of accesses and scratch lists. -/
structure Pending (s u : State) (g : Staging) (wb : Option (Reg × Word)) : Prop where
  same : ∃ d m tr, u = s.setData d m tr
  core : s.cur.DataOnly u.cur
  holds : u.cur.execSlot.Holds g
  regs : u.cur.regs = (s.applyWb wb).cur.regs
  base : ∀ r v, wb = some (r, v) → r ≠ .r15

namespace Pending

variable {s u : State} {g : Staging} {wb : Option (Reg × Word)}

/-- Before an instruction with nothing staged. -/
theorem start (h : s.cur.execSlot.rmask = 0#16) (m : Mode) : Pending s s (.empty m) none where
  same := ⟨s.cur, s.mem, s.traffic, (State.setCur_self s).symm⟩
  core := .refl _
  holds := .empty h m
  regs := rfl
  base _ _ h := nomatch h

/-- Another state of the core that holds the turn. -/
theorem setCur (h : Pending s u g wb) (d : CoreState) : u.setCur d = s.setData d u.mem u.traffic := by
  obtain ⟨e, m, tr, rfl⟩ := h.same
  exact State.setData_setData s e d m m tr tr

theorem mode (h : Pending s u g wb) : u.cur.mode = s.cur.mode := h.core.mode

/-- The same staged registers, described in another way. -/
theorem congr {g' : Staging} (h : Pending s u g wb) (hbank : g'.bank = g.bank) (hhas : ∀ i, g'.has i ↔ g.has i)
    (hvalue : ∀ i, g'.has i → g'.value i = g.value i) : Pending s u g' wb :=
  ⟨h.same, h.core, h.holds.congr hbank hhas hvalue, h.regs, h.base⟩

/-- An access changes memory and the record of accesses. -/
theorem access {t : State} (h : Pending s u g wb) (ht : t = { u with mem := t.mem, traffic := t.traffic }) :
    Pending s t g wb := by
  have hcur : t.cur = u.cur := by
    rw [ht]
    rfl
  obtain ⟨d, m, tr, hu⟩ := h.same
  refine ⟨⟨d, t.mem, t.traffic, ?_⟩, ?_, ?_, ?_, h.base⟩
  · rw [ht, hu]
    rfl
  all_goals rw [hcur]
  exacts [h.core, h.holds, h.regs]

theorem load {ld : Loader} (hld : ld.Reads) (h : Pending s u g wb) (k : CoreId) (a : Word) :
    Pending s (ld k u a).2 g wb := by
  obtain ⟨a', w, heq⟩ := hld k u a
  rw [heq]
  exact h.access rfl

/-- A change of registers and scratch lists. -/
theorem onCur {f : CoreState → CoreState} {g' : Staging} {wb' : Option (Reg × Word)} (h : Pending s u g wb)
    (hf : u.cur.DataOnly (f u.cur)) (hholds : (f u.cur).execSlot.Holds g')
    (hregs : (f u.cur).regs = (s.applyWb wb').cur.regs) (hbase : ∀ r v, wb' = some (r, v) → r ≠ .r15) :
    Pending s (u.onCur f) g' wb' := by
  refine ⟨⟨_, _, _, h.setCur _⟩, ?_, ?_, ?_, hbase⟩
  all_goals rw [State.onCur_cur]
  exacts [h.core.trans hf, hholds, hregs]

/-- Staging a register. -/
theorem stage (h : Pending s u g wb) (i : Reg) (addr v : Word) :
    Pending s (u.onCur fun c => c.stage i (phys i g.bank) addr v) (g.add i v) wb :=
  h.onCur (.stage _ i _ addr v) (h.holds.stage i addr v) (by rw [CoreState.stage_regs, h.regs]) h.base

/-- Staging a register into its bank of the current mode. -/
theorem stageReg (h : Pending s u g wb) (hbank : g.bank = s.cur.mode) (i : Reg) (addr v : Word) :
    Pending s (u.stageReg i addr v) (g.add i v) wb := by
  have hstage := h.stage i addr v
  rw [hbank, ← h.mode] at hstage
  exact hstage

theorem recordAddr (h : Pending s u g wb) (i : Reg) (addr : Word) :
    Pending s (u.onCur fun c => c.recordAddr i addr) g wb := by
  refine h.onCur (.recordAddr _ i addr) ?_ (by rw [CoreState.recordAddr_regs, h.regs]) h.base
  rw [CoreState.recordAddr, CoreState.execSlot_setExecSlot]
  exact h.holds.of_eq rfl rfl rfl

/-- The write-back of the base. -/
theorem applyWb (h : Pending s u g none) (hbase : ∀ r v, wb = some (r, v) → r ≠ .r15) :
    Pending s (u.applyWb wb) g wb := by
  match wb with
  | none => exact h
  | some (r, v) =>
    have hr := hbase r v rfl
    refine h.onCur (f := fun c => c.setReg r v) (.setReg _ v hr) ?_ ?_ hbase
    · rw [CoreState.execSlot_congr (c := u.cur) (by simp) (by simp) (by simp) (by simp)]
      exact h.holds
    · rw [State.applyWb, State.onCur_cur, CoreState.setReg_regs_of_ne _ _ hr,
        CoreState.setReg_regs_of_ne _ _ hr, h.mode, h.regs]
      rfl

/-- The access stage leaves alone what is staged. -/
theorem holds_accessMem (h : Pending s u g wb) : u.cur.accessMem.execSlot.Holds g := by
  rw [CoreState.accessMem, CoreState.execSlot_setExecSlot]
  exact h.holds.of_eq rfl rfl rfl

/-- Nothing before the writeback stage writes r15. -/
theorem regs_r15 (h : Pending s u g wb) : u.cur.regs.r15 = s.cur.regs.r15 := by
  rw [h.regs]
  match wb, h.base with
  | none, _ => rfl
  | some (r, v), hbase =>
    have hr := hbase r v rfl
    rw [State.applyWb, State.onCur_cur, CoreState.setReg_regs_of_ne _ _ hr]
    exact RegFile.set_r15_ne _ _ fun heq => hr (phys_eq_r15.mp heq)

end Pending

/-! ## The writeback stage -/

/-- Between `s` and `t` the registers of `g` but r15 have got their values, then the base its write-back where no
register of `g` overrides it, and no other register but r15 has changed. -/
structure Transferred (s t : State) (g : Staging) (wb : Option (Reg × Word)) : Prop where
  value : ∀ i, g.has i → i ≠ .r15 → t.cur.regs.get (phys i g.bank) = g.value i
  base : ∀ r v, wb = some (r, v) → (∀ i, g.has i → phys i g.bank ≠ s.physOf r) → t.cur.regs.get (s.physOf r) = v
  rest : RegsSame (fun p => p = .r15 ∨ (∃ i, g.has i ∧ p = phys i g.bank) ∨ s.isWb wb p) s t

/-- With r15 staged its change is among those of the staged registers. -/
theorem Transferred.rest_of_has_r15 {s t : State} {g : Staging} {wb : Option (Reg × Word)} (h : Transferred s t g wb)
    (hpc : g.has .r15) : RegsSame (fun p => (∃ i, g.has i ∧ p = phys i g.bank) ∨ s.isWb wb p) s t :=
  fun p hp => h.rest p fun hor => hp (hor.elim (fun heq => .inl ⟨.r15, hpc, heq⟩) id)

/-- With r15 as before, every register that is not staged and not written back is as before. -/
theorem Transferred.rest_of_r15_eq {s t : State} {g : Staging} {wb : Option (Reg × Word)} (h : Transferred s t g wb)
    (hpc : t.cur.regs.r15 = s.cur.regs.r15) :
    RegsSame (fun p => (∃ i, g.has i ∧ p = phys i g.bank) ∨ s.isWb wb p) s t := by
  intro p hp
  by_cases hp15 : p = .r15
  · rw [hp15]
    exact hpc
  · exact h.rest p (not_or.mpr ⟨hp15, hp⟩)

/-- The register file of a machine before its base is written back, read after the write-back. -/
theorem State.applyWb_get {s : State} {wb : Option (Reg × Word)} {p : PhysReg} (hp : ¬s.isWb wb p)
    (hbase : ∀ r v, wb = some (r, v) → r ≠ .r15) : (s.applyWb wb).cur.regs.get p = s.cur.regs.get p := by
  match wb, hbase with
  | none, _ => rfl
  | some (r, v), hbase =>
    rw [State.applyWb, State.onCur_cur, CoreState.setReg_regs_of_ne _ _ (hbase r v rfl)]
    exact RegFile.get_set_ne _ _ fun heq => hp ⟨r, v, rfl, heq⟩

/-- A register file that agrees with the committed one but for r15. -/
theorem Pending.transferred {s u t : State} {g : Staging} {wb : Option (Reg × Word)} (h : Pending s u g wb)
    (hregs : ∀ p, p ≠ .r15 → t.cur.regs.get p = u.cur.accessMem.committed.get p) : Transferred s t g wb := by
  have hne {i : Reg} (hi : i ≠ .r15) (m : Mode) : phys i m ≠ .r15 := fun heq => hi (phys_eq_r15.mp heq)
  have hkeep {p : PhysReg} (hp : p ≠ .r15) (hout : ∀ i, g.has i → p ≠ phys i g.bank) :
      t.cur.regs.get p = (s.applyWb wb).cur.regs.get p := by
    rw [hregs p hp, CoreState.committed,
      foldl_commitOne_get_of_ne h.holds_accessMem allRegs _ fun i _ hi _ => hout i hi, CoreState.accessMem_regs, h.regs]
  refine ⟨fun i hi hpc => ?_, fun r v hwb hout => ?_, fun p hp => ?_⟩
  · rw [hregs _ (hne hpc _)]
    exact foldl_commitOne_get h.holds_accessMem hi hpc (mem_allRegs i) _
  · subst hwb
    have hr := h.base r v rfl
    rw [hkeep (p := s.physOf r) (hne hr _) fun i hi heq => hout i hi heq.symm, State.applyWb, State.onCur_cur,
      CoreState.setReg_regs_of_ne _ _ hr]
    exact RegFile.get_set_self _ _ _
  · obtain ⟨hp15, hout, hwb⟩ : p ≠ .r15 ∧ (¬∃ i, g.has i ∧ p = phys i g.bank) ∧ ¬s.isWb wb p := by
      simpa only [not_or] using hp
    rw [hkeep hp15 fun i hi heq => hout ⟨i, hi, heq⟩, State.applyWb_get hwb h.base]

/-- The frame of a core after its registers and scratch lists have changed, the writeback stage has updated it, and it
has been charged. -/
theorem CoreState.DataOnly.frame {c a d : CoreState} {regs : RegFile} {cpsr : Word} {flush : Bool} (ha : c.DataOnly a)
    (hd : (a.updated regs cpsr flush).DataOnly d) {n : Nat} (hn : 0 < n) :
    d.charge n = { c with
        regs := (d.charge n).regs, cpsr := (d.charge n).cpsr, needsFlush := (d.charge n).needsFlush
        cycles := (d.charge n).cycles, slot0 := (d.charge n).slot0, slot1 := (d.charge n).slot1
        slot2 := (d.charge n).slot2 }
      ∧ (∀ j, ((d.charge n).slot j).word = (c.slot j).word ∧ ((d.charge n).slot j).tag = (c.slot j).tag)
      ∧ c.cycles < (d.charge n).cycles := by
  obtain ⟨ha, haSlots⟩ := ha
  obtain ⟨hd, hdSlots⟩ := hd
  refine ⟨?_, fun j => ⟨(hdSlots j).1.trans (haSlots j).1, (hdSlots j).2.trans (haSlots j).2⟩, ?_⟩
  all_goals
    rw [ha] at hd
    rw [hd]
  · rfl
  · exact Nat.lt_add_of_pos_right hn

/-- The end of a transfer whose writeback stage updates the core. -/
theorem Pending.perform {s u : State} {g : Staging} {wb : Option (Reg × Word)} (h : Pending s u g wb) {r : Rule}
    {w : PcCommit} {regs : RegFile} {cpsr : Word} {flush : Bool} (hr : r s.turn s = .done u)
    (hw : u.cur.accessMem.writeStaged s.turn w = .done (u.cur.accessMem.updated regs cpsr flush).clearStaged) :
    Frame s (s.perform w r) ∧ (s.perform w r).mem = u.mem ∧ (s.perform w r).traffic = u.traffic
      ∧ (s.perform w r).cur.regs = regs ∧ (s.perform w r).cur.cpsr = cpsr
      ∧ (s.perform w r).cur.needsFlush = flush := by
  obtain ⟨n, hn, ht⟩ : ∃ n, 0 < n ∧ s.perform w r =
      u.setCur ((u.cur.accessMem.updated regs cpsr flush).clearStaged.charge n) := by
    simp only [State.perform, hr, State.writeStaged, hw]
    refine ⟨_, Config.tickCycles_pos s.cfg s.turn (.executed s.cur.execSlot.tag s.cur.execSlot.word s.cur.instrAddr
      (u.traffic.drop s.traffic.length)), ?_⟩
    rw [State.onCur, State.setCur_setCur, State.setCur_cur]
    rfl
  obtain ⟨hfields, hslots, hcycles⟩ := CoreState.DataOnly.frame (h.core.trans (.accessMem _))
    (.clearStaged (u.cur.accessMem.updated regs cpsr flush)) hn
  rw [ht]
  refine ⟨?_, rfl, rfl, ?_, ?_, ?_⟩
  · unfold Frame
    rw [State.setCur_cur]
    refine ⟨?_, hslots, CoreState.execSlot_clearStaged_rmask _, hcycles⟩
    rw [← hfields]
    exact h.setCur _
  all_goals simp [CoreState.updated]

/-- The state after a loaded value is committed into r15: FAST takes it from bit 0 of the value, SLOW keeps its state
(43_arm_loadstore.md R235). -/
def thumbAfterLoad (k : CoreId) (cpsr v : Word) : Bool := if k = .fast then v.getLsbD 0 else psrT cpsr

/-- Setting T to what it is changes nothing. -/
theorem psrSetT_self (w : Word) : psrSetT w (psrT w) = w := by
  apply BitVec.eq_of_getLsbD_eq
  intro j hj
  by_cases h5 : j = 5
  · rw [h5]
    exact psrT_psrSetT _ _
  · exact getLsbD_psrSetT_ne _ _ h5

/-- A write of cpsr with a branch. -/
theorem CoreState.setCpsr_writePc (c : CoreState) (k : CoreId) (p v : Word) :
    (c.setCpsr k p).writePc v = c.updated (c.regs.set .r15 (alignTarget (psrT p) v)) (p &&& psrMask k) true := by
  rw [writePc, alignPc, setCpsr_cpsr, psrT_mask]
  rfl

/-- The commit of a loaded value into r15. -/
theorem CoreState.loadPc_eq (c : CoreState) (k : CoreId) (v : Word) :
    ∃ p, c.loadPc k v = c.updated (c.regs.set .r15 (alignTarget (thumbAfterLoad k c.cpsr v) v)) p true
      ∧ p &&& psrMask k = psrSetT c.cpsr (thumbAfterLoad k c.cpsr v) &&& psrMask k := by
  cases k with
  | fast =>
    refine ⟨psrSetT c.cpsr (v.getLsbD 0) &&& psrMask .fast, ?_, psrMask_mask _ _⟩
    rw [loadPc, branchExchange, setCpsr_writePc, psrT_psrSetT, thumbAfterLoad, if_pos rfl]
  | slow => exact ⟨c.cpsr, rfl, by rw [thumbAfterLoad, if_neg (by decide), psrSetT_self]⟩

/-- The writeback stage of a loaded r15. -/
theorem CoreState.writeStaged_load_r15 {c : CoreState} {v : Word} (h : c.execSlot.staged .r15 = true)
    (hv : c.execSlot.rval.get .r15 = v) (k : CoreId) :
    ∃ p, c.writeStaged k .load =
        .done (c.updated (c.committed.set .r15 (alignTarget (thumbAfterLoad k c.cpsr v) v)) p true).clearStaged
      ∧ p &&& psrMask k = psrSetT c.cpsr (thumbAfterLoad k c.cpsr v) &&& psrMask k := by
  obtain ⟨p, hload, hp⟩ := CoreState.loadPc_eq { c with regs := c.committed } k v
  refine ⟨p, ?_, hp⟩
  rw [CoreState.writeStaged_load c k h, hv]
  exact congrArg (fun d => Result.done (CoreState.clearStaged d)) hload

/-- The saved status word does not depend on the general registers. -/
theorem CoreState.getSpsr_withRegs (c : CoreState) (f : RegFile) : CoreState.getSpsr { c with regs := f } = c.getSpsr :=
  rfl

/-- The writeback stage of an exception return under a legal saved status word. -/
theorem CoreState.writeStaged_restore_legal {c : CoreState} {v : Word} (h : c.execSlot.staged .r15 = true)
    (hv : c.execSlot.rval.get .r15 = v) (hlegal : psrLegal c.getSpsr = true) (k : CoreId) :
    c.writeStaged k .restore =
      .done (c.updated (c.committed.set .r15 (alignTarget (psrT c.getSpsr) v)) (c.getSpsr &&& psrMask k)
        true).clearStaged := by
  simp only [CoreState.writeStaged, h, hv, if_true, CoreState.exceptionReturn, CoreState.getSpsr_withRegs, hlegal,
    CoreState.setCpsr_writePc]
  rfl

/-- The writeback stage of an exception return under an illegal saved status word. -/
theorem CoreState.writeStaged_restore_illegal {c : CoreState} (h : c.execSlot.staged .r15 = true)
    (hillegal : psrLegal c.getSpsr = false) (k : CoreId) :
    c.writeStaged k .restore = .stop ⟨.illegalMode, c.getSpsr, c.instrAddr⟩ { c with regs := c.committed } := by
  simp only [CoreState.writeStaged, h, if_true, CoreState.exceptionReturn, CoreState.getSpsr_withRegs, hillegal]
  rfl

namespace Pending

variable {s u : State} {g : Staging} {wb : Option (Reg × Word)} {r : Rule} {w : PcCommit}

/-- The commit leaves r15 as it was before the instruction. -/
theorem committed_r15 (h : Pending s u g wb) : u.cur.accessMem.committed.r15 = s.cur.regs.r15 := by
  rw [CoreState.committed_r15 h.holds_accessMem, CoreState.accessMem_regs, h.regs_r15]

/-- The core before the writeback stage, after the access stage. -/
theorem dataOnly_accessMem (h : Pending s u g wb) : s.cur.DataOnly u.cur.accessMem := h.core.trans (.accessMem _)

/-- Without r15: the staged registers, with cpsr and the flush request as they were. -/
theorem perform_without_r15 (h : Pending s u g wb) (hr : r s.turn s = .done u) (hpc : ¬g.has .r15) :
    Frame s (s.perform w r) ∧ (s.perform w r).mem = u.mem ∧ (s.perform w r).traffic = u.traffic
      ∧ (s.perform w r).cur.needsFlush = s.cur.needsFlush ∧ (s.perform w r).cur.cpsr = s.cur.cpsr
      ∧ Transferred s (s.perform w r) g wb
      ∧ RegsSame (fun p => (∃ i, g.has i ∧ p = phys i g.bank) ∨ s.isWb wb p) s (s.perform w r) := by
  have hstaged : u.cur.accessMem.execSlot.staged .r15 = false :=
    Bool.eq_false_iff.mpr fun hs => hpc ((h.holds_accessMem.staged .r15).mp hs)
  obtain ⟨hframe, hmem, htraffic, hregs, hcpsr, hflush⟩ := h.perform hr
    (CoreState.writeStaged_no_pc u.cur.accessMem s.turn w hstaged)
  have hdone : Transferred s (s.perform w r) g wb := h.transferred fun p _ => by rw [hregs]; rfl
  refine ⟨hframe, hmem, htraffic, ?_, ?_, hdone, hdone.rest_of_r15_eq ?_⟩
  · rw [hflush, h.dataOnly_accessMem.needsFlush]
  · rw [hcpsr, h.dataOnly_accessMem.cpsr]
  · rw [hregs]
    exact h.committed_r15

/-- The end of an instruction that stages nothing. -/
theorem perform_empty {m : Mode} (h : Pending s u (Staging.empty m) wb) (hr : r s.turn s = .done u) :
    Frame s (s.perform w r) ∧ (s.perform w r).mem = u.mem ∧ (s.perform w r).traffic = u.traffic
      ∧ (s.perform w r).cur.needsFlush = s.cur.needsFlush ∧ (s.perform w r).cur.cpsr = s.cur.cpsr
      ∧ WbDone s (s.perform w r) wb ∧ RegsSame (fun p => s.isWb wb p) s (s.perform w r) := by
  obtain ⟨hframe, hmem, htraffic, hflush, hcpsr, hdone, hrest⟩ := h.perform_without_r15 (w := w) hr id
  refine ⟨hframe, hmem, htraffic, hflush, hcpsr, fun r v hwb => hdone.base r v hwb fun _ => False.elim,
    fun p hp => hrest p ?_⟩
  rintro (⟨_, hfalse, _⟩ | hwb)
  exacts [hfalse, hp hwb]

/-- A loaded r15: the staged registers, and a branch to the value in the state that it or the core determines. -/
theorem perform_load_r15 (h : Pending s u g wb) (hr : r s.turn s = .done u) (hpc : g.has .r15) :
    let thumb := thumbAfterLoad s.turn s.cur.cpsr (g.value .r15)
    Frame s (s.perform .load r) ∧ (s.perform .load r).mem = u.mem ∧ (s.perform .load r).cur.needsFlush = true
      ∧ (s.perform .load r).cur.regs.r15 = alignTarget thumb (g.value .r15)
      ∧ (s.perform .load r).cur.cpsr &&& psrMask s.turn = psrSetT s.cur.cpsr thumb &&& psrMask s.turn
      ∧ Transferred s (s.perform .load r) g wb := by
  obtain ⟨p, hw, hp⟩ := CoreState.writeStaged_load_r15 ((h.holds_accessMem.staged .r15).mpr hpc)
    (h.holds_accessMem.value .r15 hpc) s.turn
  rw [h.dataOnly_accessMem.cpsr] at hw hp
  obtain ⟨hframe, hmem, -, hregs, hcpsr, hflush⟩ := h.perform hr hw
  refine ⟨hframe, hmem, hflush, ?_, ?_, h.transferred fun q hq => ?_⟩
  · rw [hregs]
    rfl
  · rw [hcpsr, hp]
  · rw [hregs, RegFile.get_set_ne _ _ hq]

/-- A loaded r15 with an exception return under a legal saved status word (43_arm_loadstore.md R239). -/
theorem perform_restore_legal (h : Pending s u g wb) (hr : r s.turn s = .done u) (hpc : g.has .r15)
    (hlegal : psrLegal s.cur.getSpsr = true) :
    Frame s (s.perform .restore r) ∧ (s.perform .restore r).mem = u.mem
      ∧ (s.perform .restore r).cur.needsFlush = true
      ∧ (s.perform .restore r).cur.cpsr = s.cur.getSpsr &&& psrMask s.turn
      ∧ (s.perform .restore r).cur.regs.r15 = alignTarget (psrT s.cur.getSpsr) (g.value .r15)
      ∧ Transferred s (s.perform .restore r) g wb := by
  have hspsr := h.dataOnly_accessMem.getSpsr
  have hw := CoreState.writeStaged_restore_legal ((h.holds_accessMem.staged .r15).mpr hpc)
    (h.holds_accessMem.value .r15 hpc) (hspsr ▸ hlegal) s.turn
  rw [hspsr] at hw
  obtain ⟨hframe, hmem, -, hregs, hcpsr, hflush⟩ := h.perform hr hw
  refine ⟨hframe, hmem, hflush, hcpsr, ?_, h.transferred fun q hq => ?_⟩
  · rw [hregs]
    rfl
  · rw [hregs, RegFile.get_set_ne _ _ hq]

/-- A loaded r15 with an exception return under an illegal saved status word: the stop leaves the registers committed,
with cpsr and r15 as they were (43_arm_loadstore.md R239, 41_pipeline.md R159). -/
theorem perform_restore_illegal (h : Pending s u g wb) (hr : r s.turn s = .done u) (hpc : g.has .r15)
    (hillegal : psrLegal s.cur.getSpsr = false) :
    (s.perform .restore r).mem = u.mem ∧ (s.perform .restore r).cur.running = false
      ∧ (s.perform .restore r).cur.cpsr = s.cur.cpsr
      ∧ (s.perform .restore r).cur.regs.r15 = s.cur.regs.r15
      ∧ (s.perform .restore r).cur.diag = some ⟨.illegalMode, s.cur.getSpsr, s.cur.instrAddr⟩
      ∧ Transferred s (s.perform .restore r) g wb := by
  have hspsr := h.dataOnly_accessMem.getSpsr
  have hw := CoreState.writeStaged_restore_illegal ((h.holds_accessMem.staged .r15).mpr hpc) (hspsr ▸ hillegal) s.turn
  have haddr : u.cur.accessMem.instrAddr = s.cur.instrAddr := by
    rw [CoreState.instrAddr, CoreState.width, h.dataOnly_accessMem.cpsr, CoreState.accessMem_regs, h.regs_r15]
    rfl
  have ht : s.perform .restore r = State.stopWith (u.setCur { u.cur.accessMem with regs := u.cur.accessMem.committed })
      ⟨.illegalMode, s.cur.getSpsr, s.cur.instrAddr⟩ := by
    simp only [State.perform, hr, State.writeStaged, hw, hspsr, haddr]
  have hcur : (s.perform .restore r).cur = { u.cur.accessMem with
      regs := u.cur.accessMem.committed, running := false
      diag := some ⟨.illegalMode, s.cur.getSpsr, s.cur.instrAddr⟩ } := by
    rw [ht, State.stopWith, State.onCur_cur, State.setCur_cur]
  refine ⟨by rw [ht]; rfl, ?_, ?_, ?_, ?_, h.transferred fun q hq => ?_⟩
  all_goals rw [hcur]
  · exact h.dataOnly_accessMem.cpsr
  · exact h.committed_r15

end Pending

end Sys2Proof.Machine
end

section
/-! SUPPORT. The values of the loads and the addresses of the transfers: the ones of the statements are the ones of the
meanings (43_arm_loadstore.md R215, R216, R226, R233). -/

namespace Sys2Proof

open Machine

/-! ## Values -/

/-- The word of the statements is the one a word access reads. -/
theorem Machine.State.word_eq_memLoad (s : State) (a : Word) : s.word a = memLoad s.mem a .word := by
  have hthree : a + 2#32 + 1#32 = a + 3#32 := BitVec.add_assoc a 2#32 1#32
  simp only [State.word, State.half, State.byte, memLoad, hthree]
  rw [BitVec.append_assoc (x₁ := memByte s.mem (a + 3#32).toNat ++ memByte s.mem (a + 2#32).toNat), BitVec.cast_eq]

/-- The narrow value in a widened one. -/
theorem extractLsb'_setWidth_self {n : Nat} (x : BitVec n) (h : n ≤ 32) :
    (x.setWidth 32).extractLsb' 0 n = x := by
  apply BitVec.eq_of_getLsbD_eq
  intro j hj
  simp [hj, show j < 32 by omega]

/-- Bit 0, as a number. -/
theorem toNat_extractLsb'_zero_one (a : Word) : (a.extractLsb' 0 1).toNat = (a.getLsbD 0).toNat := by
  rw [BitVec.extractLsb'_toNat, BitVec.getLsbD, Nat.testBit_zero, Nat.shiftRight_zero]
  rcases Nat.mod_two_eq_zero_or_one a.toNat with h | h <;> simp [h]

/-- A rotation by 0. -/
theorem rotateRight_zero (v : Word) : v.rotateRight 0 = v := by
  rw [BitVec.rotateRight_def]
  simp

/-- The load of the model for each kind of the statements. -/
def LoadKind.loader : LoadKind → Loader
  | .word => loadWord
  | .byte => loadByte
  | .half => loadHalf
  | .signedByte => loadSignedByte
  | .signedHalf => loadSignedHalf

theorem LoadKind.loader_reads (kind : LoadKind) : Loader.Reads kind.loader := by
  cases kind with
  | word => exact loadWord_reads
  | byte => exact loadByte_reads
  | half => exact loadHalf_reads
  | signedByte => exact loadSignedByte_reads
  | signedHalf => exact loadSignedHalf_reads

/-- Each kind of load answers the value of the statements (43_arm_loadstore.md R233). -/
theorem LoadKind.loader_value (kind : LoadKind) (k : CoreId) (s : State) (a : Word) :
    (kind.loader k s a).1 = kind.value k s a := by
  cases kind with
  | word =>
    rw [LoadKind.value, State.word_eq_memLoad]
    change (memLoad s.mem (alignWord a) .word).rotateRight (8 * (a.extractLsb' 0 2).toNat) = _
    rw [BitVec.extractLsb'_toNat, Nat.shiftRight_zero]
    rfl
  | byte => rfl
  | half =>
    cases k with
    | fast => rfl
    | slow =>
      change (memLoad s.mem (alignHalf a) .half).rotateRight (8 * (a.extractLsb' 0 1).toNat) = _
      rw [toNat_extractLsb'_zero_one]
      unfold LoadKind.value
      cases a.getLsbD 0 with
      | false => exact rotateRight_zero _
      | true => rfl
  | signedByte => exact congrArg (BitVec.signExtend 32) (extractLsb'_setWidth_self (s.byte a) (by decide))
  | signedHalf =>
    have hhalf := congrArg (BitVec.signExtend 32) (extractLsb'_setWidth_self (s.half (alignHalf a)) (by decide))
    have hbyte := congrArg (BitVec.signExtend 32) (extractLsb'_setWidth_self (s.byte a) (by decide))
    cases k with
    | fast => exact hhalf
    | slow =>
      change (loadSignedHalf _ _ _).1 = _
      unfold loadSignedHalf LoadKind.value
      cases a.getLsbD 0 with
      | false => exact hhalf
      | true => exact hbyte

/-! ## Addresses -/

/-- The effective address and the write-back that an addressing of the model gives. -/
def Machine.Addressing.effective (a : Addressing) (rn : Reg) : Effective :=
  ⟨a.addr, if a.wb then some (rn, a.offaddr) else none⟩

theorem effImm_eq {c : CoreState} (h : psrT c.cpsr = false) (mode : IndexMode) (up : Bool) (rn : Reg)
    (imm12 : BitVec 12) : c.effImm mode up rn imm12 = (sdtImm mode up rn imm12 c).effective rn := by
  rw [CoreState.effImm, effective_eq_addressing h, BitVec.ofNat_toNat]
  rfl

theorem effReg_eq {c : CoreState} (h : psrT c.cpsr = false) (mode : IndexMode) (up : Bool) (rn : Reg)
    (amount : BitVec 5) (ty : ShiftType) (rm : Reg) :
    c.effReg mode up rn amount ty rm = (sdtReg mode up rn amount ty rm c).effective rn := by
  rw [CoreState.effReg, effective_eq_addressing h, CoreState.immShift, armReg_eq_reg h]
  rfl

theorem effHdt_eq {c : CoreState} (h : psrT c.cpsr = false) (mode : IndexMode) (up : Bool) (rn : Reg)
    (off : HdtOffset) : c.effHdt mode up rn off = (hdtAddr mode up rn off c).effective rn := by
  unfold CoreState.effHdt
  rw [effective_eq_addressing h]
  cases off with
  | imm v =>
    simp only [BitVec.ofNat_toNat]
    rfl
  | reg rm =>
    simp only [armReg_eq_reg h]
    rfl

/-- The scaled immediates of formats 9 and 10 (30_encoding.md R92). -/
theorem addrRegImm_scaled5 (rb : LoReg) (imm5 : BitVec 5) (n : Nat) (c : CoreState) :
    addrRegImm (loReg rb) (scaled5 imm5 n) c = c.lowPlus rb (2 ^ n * imm5.toNat) := by
  have hscaled : scaled5 imm5 n = BitVec.ofNat 32 (2 ^ n * imm5.toNat) := by
    apply BitVec.eq_of_toNat_eq
    simp [scaled5, Nat.shiftLeft_eq, Nat.mul_comm]
  rw [addrRegImm, hscaled]
  rfl

/-- The immediate of the byte transfers of format 9 is not scaled. -/
theorem addrRegImm_unscaled5 (rb : LoReg) (imm5 : BitVec 5) (c : CoreState) :
    addrRegImm (loReg rb) (scaled5 imm5 0) c = c.lowPlus rb imm5.toNat := by
  rw [addrRegImm_scaled5, pow_zero, one_mul]

/-- A write-back names the base, so it spares a register that no form with write-back has as its base. -/
theorem effective_wb_ne {c : CoreState} {mode : IndexMode} {up : Bool} {rn i : Reg} {off : Word}
    (h : (mode != .offset && rn == i) = false) :
    ∀ r v, (c.effective mode up rn off).wb = some (r, v) → r ≠ i := by
  intro r v hwb
  cases mode with
  | offset => cases hwb
  | pre | post =>
    cases hwb
    exact beq_eq_false_iff_ne.mp h

theorem effHdt_wb_ne {c : CoreState} {mode : IndexMode} {up : Bool} {rn i : Reg} {off : HdtOffset}
    (h : (mode != .offset && rn == i) = false) : ∀ r v, (c.effHdt mode up rn off).wb = some (r, v) → r ≠ i :=
  effective_wb_ne h

/-- A recognized transfer of A_SDT with write-back has no base r15 (43_arm_loadstore.md R217). -/
theorem base_of_sdtUnpredictable {wb byte : Bool} {rn rd : Reg} {rm : Option Reg}
    (h : sdtUnpredictable wb byte rn rd rm = false) : (wb && rn == .r15) = false := by
  simp only [sdtUnpredictable, Bool.or_eq_false_iff] at h
  obtain ⟨⟨hbase, -⟩, -⟩ := h
  exact hbase

/-- A recognized transfer of A_HDT with write-back has no base r15 (43_arm_loadstore.md R226). -/
theorem base_of_hdtUnpredictable {mode : IndexMode} {rn rd : Reg} {off : HdtOffset}
    (h : hdtUnpredictable mode rn rd off = false) : (mode != .offset && rn == .r15) = false := by
  simp only [hdtUnpredictable, Bool.or_eq_false_iff] at h
  obtain ⟨⟨hbase, -⟩, -⟩ := h
  exact hbase

/-- The write-back of an addressing, as a write-back of the statements. -/
theorem Machine.State.writeBase_eq_applyWb (s : State) (a : Addressing) (rn : Reg) :
    s.writeBase a rn = s.applyWb (a.effective rn).wb := by
  rw [State.writeBase, Addressing.effective]
  cases a.wb <;> rfl

end Sys2Proof
end

section
/-! CERTIFICATE. The single loads and stores. -/

namespace Sys2Proof

open Machine

/-! ## Loads -/

@[simp] theorem Machine.State.applyWb_mem (s : State) (wb : Option (Reg × Word)) : (s.applyWb wb).mem = s.mem := by
  cases wb <;> rfl

@[simp] theorem Machine.State.applyWb_traffic (s : State) (wb : Option (Reg × Word)) :
    (s.applyWb wb).traffic = s.traffic := by
  cases wb <;> rfl

/-- One staged register. -/
theorem Machine.Staging.has_single {m : Mode} {i j : Reg} {v : Word} : ((Staging.empty m).add i v).has j ↔ j = i :=
  or_iff_left not_false

/-- The machine after the rule of a load: the access, the write-back, and the value staged. -/
def Machine.State.afterLoad (s : State) (l : Load) : State :=
  let r := l.kind.loader s.turn s l.addr
  (r.2.applyWb l.wb).stageReg l.rd l.addr r.1

theorem loadRule_done {ld : Loader} {kind : LoadKind} (hld : ld = kind.loader) {rn rd : Reg}
    {addressing : CoreState → Addressing} {s : State} {e : Effective} (he : e = (addressing s.cur).effective rn) :
    loadRule ld rn rd addressing s.turn s = .done (s.afterLoad (loadAt kind rd e)) := by
  rw [hld, he, loadRule, State.writeBase_eq_applyWb]
  rfl

theorem thumbLoadRule_done {ld : Loader} {kind : LoadKind} (hld : ld = kind.loader) {rd : LoReg}
    {addr : CoreState → Word} {s : State} {a : Word} (ha : addr s.cur = a) :
    thumbLoadRule ld rd addr s.turn s = .done (s.afterLoad ⟨kind, loReg rd, a, none⟩) := by
  rw [hld, ← ha]
  rfl

/-- Each single load that runs performs a rule that ends as the load of the statements does. -/
theorem exec_load {i : Instr} {s : State} {l : Load} (hl : i.load? s.cur = some l) (h : Runs i s) :
    ∃ r : Rule, exec i s = .next (s.perform .load r) ∧ r s.turn s = .done (s.afterLoad l) := by
  have ⟨hstate, _⟩ := h
  cases i with
  | ldrImm | ldrbImm | ldrtImm | ldrbtImm =>
    cases hl
    exact ⟨_, runCond_of_runs h rfl, loadRule_done (by rfl) (effImm_eq hstate.symm ..)⟩
  | ldrReg | ldrbReg | ldrtReg | ldrbtReg =>
    cases hl
    exact ⟨_, runCond_of_runs h rfl, loadRule_done (by rfl) (effReg_eq hstate.symm ..)⟩
  | ldrh | ldrsb | ldrsh =>
    cases hl
    exact ⟨_, runCond_of_runs h rfl, loadRule_done (by rfl) (effHdt_eq hstate.symm ..)⟩
  | tLdrPc | tLdrSp =>
    cases hl
    rw [ofNat_four_mul_toNat]
    exact ⟨_, runAlways_of_runs h, thumbLoadRule_done (by rfl) rfl⟩
  | tLdrReg | tLdrbReg | tLdrsbReg | tLdrhReg | tLdrshReg =>
    cases hl
    exact ⟨_, runAlways_of_runs h, thumbLoadRule_done (by rfl) rfl⟩
  | tLdrImm imm5 rb =>
    cases hl
    exact ⟨_, runAlways_of_runs h, thumbLoadRule_done (by rfl) (addrRegImm_scaled5 rb imm5 2 _)⟩
  | tLdrbImm imm5 rb =>
    cases hl
    exact ⟨_, runAlways_of_runs h, thumbLoadRule_done (by rfl) (addrRegImm_unscaled5 rb imm5 _)⟩
  | tLdrhImm imm5 rb =>
    cases hl
    exact ⟨_, runAlways_of_runs h, thumbLoadRule_done (by rfl) (addrRegImm_scaled5 rb imm5 1 _)⟩
  | _ => nomatch hl

/-- No load that a core recognizes writes back to r15. -/
theorem load_wb_ne_r15 {i : Instr} {c : CoreState} {l : Load} (hl : i.load? c = some l) (h : i.unpredictable = false) :
    ∀ r v, l.wb = some (r, v) → r ≠ .r15 := by
  cases i with
  | ldrImm | ldrbImm | ldrtImm | ldrbtImm | ldrReg | ldrbReg | ldrtReg | ldrbtReg =>
    cases hl
    exact effective_wb_ne (base_of_sdtUnpredictable h)
  | ldrh | ldrsb | ldrsh =>
    cases hl
    exact effective_wb_ne (base_of_hdtUnpredictable h)
  | tLdrPc | tLdrSp | tLdrReg | tLdrbReg | tLdrsbReg | tLdrhReg | tLdrshReg | tLdrImm | tLdrbImm | tLdrhImm =>
    cases hl
    exact fun _ _ hwb => nomatch hwb
  | _ => nomatch hl

/-- What a load leaves for its writeback stage: one staged register, and the write-back done. -/
theorem pending_afterLoad {s : State} {l : Load} (hstaged : s.cur.execSlot.rmask = 0#16)
    (hbase : ∀ r v, l.wb = some (r, v) → r ≠ .r15) :
    Pending s (s.afterLoad l) ((Staging.empty s.cur.mode).add l.rd (l.kind.value s.turn s l.addr)) l.wb := by
  rw [← LoadKind.loader_value]
  exact (((Pending.start hstaged _).load l.kind.loader_reads s.turn l.addr).applyWb hbase).stageReg rfl l.rd l.addr _

/-- A load makes one access and leaves memory alone. -/
theorem afterLoad_access (s : State) (l : Load) :
    (s.afterLoad l).mem = s.mem ∧ (s.afterLoad l).traffic.length = s.traffic.length + 1 := by
  obtain ⟨a, w, hread⟩ := l.kind.loader_reads s.turn s l.addr
  simp [State.afterLoad, hread, State.read_snd]

/-- Settles O46: one register is staged, and the commit overrides the write-back of the same register. -/
theorem loadsWriteRd : Obligations.LoadsWriteRd := by
  unfold Obligations.LoadsWriteRd
  intro i s l hl hrd h
  obtain ⟨r, hexec, hrule⟩ := exec_load hl h
  have hbase := load_wb_ne_r15 hl (unpredictable_of_runs h)
  obtain ⟨hmem, htraffic⟩ := afterLoad_access s l
  obtain ⟨-, -, -, hstaged⟩ := h
  obtain ⟨hframe, hmem', htraffic', hflush, hcpsr, hdone, hrest⟩ :=
    (pending_afterLoad hstaged hbase).perform_without_r15 (w := .load) hrule
      fun hpc => hrd (Staging.has_single.mp hpc).symm
  refine ⟨_, hexec, hframe, fun a => ?_, ?_, hflush, hcpsr, ?_, fun r v hwb hne => ?_, fun p hp => hrest p ?_⟩
  · rw [hmem', hmem]
  · rw [htraffic', htraffic]
  · exact (hdone.value l.rd (.inl rfl) hrd).trans (if_pos rfl)
  · refine hdone.base r v hwb fun j hj heq => hne ?_
    rw [← Staging.has_single.mp hj]
    exact (phys_inj.mp heq).symm
  · rintro (⟨j, hj, rfl⟩ | hwb)
    · exact hp (.inl (by rw [Staging.has_single.mp hj]; rfl))
    · exact hp (.inr hwb)

/-- Settles O47: r15 is staged alone, and its commit is the branch of a loaded value. -/
theorem loadsIntoPc : Obligations.LoadsIntoPc := by
  unfold Obligations.LoadsIntoPc
  intro i s l hl hrd h
  obtain ⟨r, hexec, hrule⟩ := exec_load hl h
  have hbase := load_wb_ne_r15 hl (unpredictable_of_runs h)
  obtain ⟨hmem, -⟩ := afterLoad_access s l
  obtain ⟨-, -, -, hstaged⟩ := h
  have hpending := pending_afterLoad hstaged hbase
  rw [hrd] at hpending
  obtain ⟨hframe, hmem', hflush, hpc, hcpsr, hdone⟩ := hpending.perform_load_r15 hrule (.inl rfl)
  refine ⟨_, hexec, hframe, fun a => ?_, hflush, hpc, hcpsr, fun r v hwb => ?_, fun p hp => hdone.rest p ?_⟩
  · rw [hmem', hmem]
  · refine hdone.base r v hwb fun j hj heq => hbase r v hwb ?_
    rw [← Staging.has_single.mp hj]
    exact (phys_inj.mp heq).symm
  · rintro (hp15 | ⟨j, hj, rfl⟩ | hwb)
    · exact hp (.inl hp15)
    · exact hp (.inl (by rw [Staging.has_single.mp hj]; rfl))
    · exact hp (.inr hwb)

/-! ## Stores -/

/-- The address of an access of a width: aligned down to the width (43_arm_loadstore.md R234). -/
def Machine.Width.aligned (w : Width) (a : Word) : Word :=
  match w with
  | .byte => a
  | .half => alignHalf a
  | .word => alignWord a

/-- The bytes of a store, at any address. -/
theorem memByte_memStore_in {m : List Host.Cell} (h : Memory.wf m = true) (w : Width) (a v : Word) {n : Nat}
    (hn : n < w.bytes) : memByte (memStore m a w v) (a + BitVec.ofNat 32 n).toNat = v.extractLsb' (8 * n) 8 := by
  cases w with
  | byte =>
    obtain rfl : n = 0 := Nat.lt_one_iff.mp hn
    simp [memByte_memStore_byte h]
  | half =>
    rw [memByte_memStore_half h]
    match n, hn with
    | 0, _ | 1, _ => simp [-BitVec.toNat_add, BitVec.toNat_inj]
  | word => exact memByte_memStore_word_in h a v hn

/-- A byte outside the access of a store keeps its value. -/
theorem memByte_memStore_out {m : List Host.Cell} (h : Memory.wf m = true) (w : Width) (a v : Word) {b : Nat}
    (hb : ¬InAccess w a b) : memByte (memStore m a w v) b = memByte m b := by
  have hne : ∀ n < w.bytes, b ≠ (a + BitVec.ofNat 32 n).toNat := fun n hn heq => hb ⟨n, hn, heq⟩
  have hzero : b ≠ a.toNat := by
    have := hne 0 (by cases w <;> decide)
    rwa [BitVec.add_zero] at this
  cases w with
  | byte => rw [memByte_memStore_byte h, if_neg hzero]
  | half => rw [memByte_memStore_half h, if_neg (hne 1 (by decide)), if_neg hzero]
  | word => exact memByte_memStore_word_out h a v hb

/-- The machine after the rule of a store: the access, the address recorded, and the write-back. -/
def Machine.State.afterStore (s : State) (x : Store) : State :=
  ((s.write (x.width.aligned x.addr) x.width (s.storeValue x.rd)).onCur fun c => c.recordAddr x.rd x.addr).applyWb x.wb

theorem storeRule_done {st : Storer} {w : Width} (hst : st = fun s a v => s.write (w.aligned a) w v) {rn rd : Reg}
    {addressing : CoreState → Addressing} {s : State} {e : Effective} (he : e = (addressing s.cur).effective rn) :
    storeRule st rn rd addressing s.turn s = .done (s.afterStore (storeAt w rd e)) := by
  rw [hst, he, storeRule, State.writeBase_eq_applyWb]
  rfl

theorem thumbStoreRule_done {st : Storer} {w : Width} (hst : st = fun s a v => s.write (w.aligned a) w v) {rd : LoReg}
    {addr : CoreState → Word} {s : State} {a : Word} (ha : addr s.cur = a) :
    thumbStoreRule st rd addr s.turn s = .done (s.afterStore ⟨w, loReg rd, a, none⟩) := by
  rw [hst, ← ha, State.afterStore, State.storeValue, if_neg (loReg_ne_r15 rd)]
  rfl

/-- Each single store that runs performs a rule that ends as the store of the statements does. -/
theorem exec_store {i : Instr} {s : State} {x : Store} (hx : i.store? s.cur = some x) (h : Runs i s) :
    ∃ r : Rule, exec i s = .next (s.perform .load r) ∧ r s.turn s = .done (s.afterStore x) := by
  have ⟨hstate, _⟩ := h
  cases i with
  | strImm | strbImm | strtImm | strbtImm =>
    cases hx
    exact ⟨_, runCond_of_runs h rfl, storeRule_done (by rfl) (effImm_eq hstate.symm ..)⟩
  | strReg | strbReg | strtReg | strbtReg =>
    cases hx
    exact ⟨_, runCond_of_runs h rfl, storeRule_done (by rfl) (effReg_eq hstate.symm ..)⟩
  | strh =>
    cases hx
    exact ⟨_, runCond_of_runs h rfl, storeRule_done (by rfl) (effHdt_eq hstate.symm ..)⟩
  | tStrSp =>
    cases hx
    rw [ofNat_four_mul_toNat]
    exact ⟨_, runAlways_of_runs h, thumbStoreRule_done (by rfl) rfl⟩
  | tStrReg | tStrbReg | tStrhReg =>
    cases hx
    exact ⟨_, runAlways_of_runs h, thumbStoreRule_done (by rfl) rfl⟩
  | tStrImm imm5 rb =>
    cases hx
    exact ⟨_, runAlways_of_runs h, thumbStoreRule_done (by rfl) (addrRegImm_scaled5 rb imm5 2 _)⟩
  | tStrbImm imm5 rb =>
    cases hx
    exact ⟨_, runAlways_of_runs h, thumbStoreRule_done (by rfl) (addrRegImm_unscaled5 rb imm5 _)⟩
  | tStrhImm imm5 rb =>
    cases hx
    exact ⟨_, runAlways_of_runs h, thumbStoreRule_done (by rfl) (addrRegImm_scaled5 rb imm5 1 _)⟩
  | _ => nomatch hx

/-- No store that a core recognizes writes back to r15. -/
theorem store_wb_ne_r15 {i : Instr} {c : CoreState} {x : Store} (hx : i.store? c = some x)
    (h : i.unpredictable = false) : ∀ r v, x.wb = some (r, v) → r ≠ .r15 := by
  cases i with
  | strImm | strbImm | strtImm | strbtImm | strReg | strbReg | strtReg | strbtReg =>
    cases hx
    exact effective_wb_ne (base_of_sdtUnpredictable h)
  | strh =>
    cases hx
    exact effective_wb_ne (base_of_hdtUnpredictable h)
  | tStrSp | tStrReg | tStrbReg | tStrhReg | tStrImm | tStrbImm | tStrhImm =>
    cases hx
    exact fun _ _ hwb => nomatch hwb
  | _ => nomatch hx

/-- A store stages nothing. -/
theorem pending_afterStore {s : State} {x : Store} (hstaged : s.cur.execSlot.rmask = 0#16)
    (hbase : ∀ r v, x.wb = some (r, v) → r ≠ .r15) :
    Pending s (s.afterStore x) (Staging.empty s.cur.mode) x.wb :=
  (((Pending.start hstaged _).access rfl).recordAddr x.rd x.addr).applyWb hbase

/-- Settles O48: the store writes the bytes of its access, and nothing is staged. -/
theorem storesWriteMemory : Obligations.StoresWriteMemory := by
  unfold Obligations.StoresWriteMemory
  intro i s x hx h hwf
  obtain ⟨r, hexec, hrule⟩ := exec_store hx h
  have hbase := store_wb_ne_r15 hx (unpredictable_of_runs h)
  obtain ⟨-, -, -, hstaged⟩ := h
  obtain ⟨hframe, hmem, htraffic, hflush, hcpsr, hwb, hrest⟩ :=
    (pending_afterStore hstaged hbase).perform_empty (w := .load) hrule
  rw [State.afterStore, State.applyWb_mem] at hmem
  rw [State.afterStore, State.applyWb_traffic] at htraffic
  refine ⟨_, hexec, hframe, ?_, hflush, hcpsr, fun n hn => ?_, fun a ha => ?_, hwb, hrest⟩
  · simp [htraffic, State.write]
  · rw [State.byte, hmem]
    cases x with
    | mk w rd addr wb => cases w <;> exact memByte_memStore_in hwf _ _ _ hn
  · rw [hmem]
    cases x with
    | mk w rd addr wb => cases w <;> exact memByte_memStore_out hwf _ _ _ ha

end Sys2Proof
end

section
/-! CERTIFICATE. The doubleword transfers and the swaps. -/

namespace Sys2Proof

open Machine

/-! ## Two words -/

/-- A word reads the same from memories that agree on its bytes. -/
theorem memLoad_word_congr {m m' : List Host.Cell} {a : Word}
    (h : ∀ n < 4, memByte m (a + BitVec.ofNat 32 n).toNat = memByte m' (a + BitVec.ofNat 32 n).toNat) :
    memLoad m a .word = memLoad m' a .word := by
  have h0 := h 0 (by decide)
  rw [BitVec.add_zero] at h0
  simp only [memLoad, h0, h 1 (by decide), h 2 (by decide), h 3 (by decide)]

/-- Two words at different multiples of 4 from one address share no byte. -/
theorem not_inAccess_word {a : Word} {i j n : Nat} (hij : i ≠ j) (hi : i < 2 ^ 16) (hj : j < 2 ^ 16) (hn : n < 4) :
    ¬InAccess .word (a + BitVec.ofNat 32 (4 * j)) (a + BitVec.ofNat 32 (4 * i) + BitVec.ofNat 32 n).toNat := by
  rintro ⟨k, hk, heq⟩
  have hk4 : k < 4 := hk
  have hlt := a.isLt
  simp only [BitVec.toNat_add, BitVec.toNat_ofNat] at heq
  omega

/-- What a recognized doubleword transfer guarantees of its registers (43_arm_loadstore.md R231, R232). -/
theorem ne_r15_of_even {rd : Reg} (hodd : rd.odd = false) (hne : rd ≠ .r14) :
    rd ≠ .r15 ∧ rd.succ ≠ .r15 ∧ rd ≠ rd.succ := by
  revert hodd hne
  cases rd <;> decide

/-- The machine after the rule of LDRD. -/
def Machine.State.afterLdrd (s : State) (rd : Reg) (e : Effective) : State :=
  let lo := alignWord e.addr
  let r0 := s.read lo .word
  let r1 := r0.2.read (lo + 4#32) .word
  ((r1.2.applyWb e.wb).stageReg rd e.addr r0.1).stageReg rd.succ (lo + 4#32) r1.1

theorem ldrdRule_done {rn rd : Reg} {addressing : CoreState → Addressing} {s : State} {e : Effective}
    (he : e = (addressing s.cur).effective rn) : ldrdRule rn rd addressing s.turn s = .done (s.afterLdrd rd e) := by
  rw [he, ldrdRule, State.writeBase_eq_applyWb]
  rfl

/-- The machine after the rule of STRD. -/
def Machine.State.afterStrd (s : State) (rd : Reg) (e : Effective) : State :=
  let lo := alignWord e.addr
  (((s.write lo .word (s.cur.reg rd)).write (lo + 4#32) .word (s.cur.reg rd.succ)).onCur fun c =>
    (c.recordAddr rd e.addr).recordAddr rd.succ (lo + 4#32)).applyWb e.wb

theorem strdRule_done {rn rd : Reg} {addressing : CoreState → Addressing} {s : State} {e : Effective}
    (he : e = (addressing s.cur).effective rn) : strdRule rn rd addressing s.turn s = .done (s.afterStrd rd e) := by
  rw [he, strdRule, State.writeBase_eq_applyWb]
  rfl

/-- What LDRD leaves for its writeback stage: two staged registers, and the write-back done. -/
theorem pending_afterLdrd {s : State} (rd : Reg) {e : Effective} (hstaged : s.cur.execSlot.rmask = 0#16)
    (hbase : ∀ r v, e.wb = some (r, v) → r ≠ .r15) :
    Pending s (s.afterLdrd rd e)
      (((Staging.empty s.cur.mode).add rd (s.word (alignWord e.addr))).add rd.succ
        (s.word (alignWord e.addr + 4#32))) e.wb := by
  rw [State.word_eq_memLoad, State.word_eq_memLoad]
  have hread := ((Pending.start hstaged s.cur.mode).access (t := (s.read (alignWord e.addr) .word).2) rfl).access
    (t := ((s.read (alignWord e.addr) .word).2.read (alignWord e.addr + 4#32) .word).2) rfl
  exact ((hread.applyWb hbase).stageReg rfl rd e.addr _).stageReg rfl rd.succ (alignWord e.addr + 4#32) _

/-- STRD stages nothing. -/
theorem pending_afterStrd {s : State} (rd : Reg) {e : Effective} (hstaged : s.cur.execSlot.rmask = 0#16)
    (hbase : ∀ r v, e.wb = some (r, v) → r ≠ .r15) :
    Pending s (s.afterStrd rd e) (Staging.empty s.cur.mode) e.wb := by
  have hwrite := (Pending.start hstaged s.cur.mode).access
    (t := (s.write (alignWord e.addr) .word (s.cur.reg rd)).write (alignWord e.addr + 4#32) .word
      (s.cur.reg rd.succ)) rfl
  have hrecord := (hwrite.recordAddr rd e.addr).recordAddr rd.succ (alignWord e.addr + 4#32)
  rw [State.onCur_onCur] at hrecord
  exact hrecord.applyWb hbase

theorem afterStrd_mem (s : State) (rd : Reg) (e : Effective) :
    (s.afterStrd rd e).mem =
      memStore (memStore s.mem (alignWord e.addr) .word (s.cur.reg rd)) (alignWord e.addr + 4#32) .word
        (s.cur.reg rd.succ) := by
  rw [State.afterStrd, State.applyWb_mem]
  rfl

theorem afterLdrd_mem (s : State) (rd : Reg) (e : Effective) : (s.afterLdrd rd e).mem = s.mem := by
  rw [State.afterLdrd, State.stageReg_mem, State.stageReg_mem, State.applyWb_mem]
  rfl

/-- LDRD: both registers are staged, and neither is the base of a write-back. -/
theorem ldrd_transfers {s : State} {c : Cond} {mode : IndexMode} {up : Bool} {rn rd : Reg} {off : HdtOffset}
    (h : Runs (.ldrd c mode up rn rd off) s) :
    let x := s.cur.effHdt mode up rn off
    let lo := x.addr &&& ~~~3#32
    ∃ t, exec (.ldrd c mode up rn rd off) s = .next t ∧ Frame s t ∧ MemSame s t
      ∧ t.cur.needsFlush = s.cur.needsFlush ∧ t.cur.cpsr = s.cur.cpsr
      ∧ t.cur.regs.get (s.physOf rd) = s.word lo ∧ t.cur.regs.get (s.physOf rd.succ) = s.word (lo + 4#32)
      ∧ WbDone s t x.wb
      ∧ RegsSame (fun p => p = s.physOf rd ∨ p = s.physOf rd.succ ∨ s.isWb x.wb p) s t := by
  have hunp := unpredictable_of_runs h
  simp only [Instr.unpredictable, ldrdUnpredictable, Bool.or_eq_false_iff, Bool.and_or_distrib_left] at hunp
  obtain ⟨hhdt, ⟨⟨⟨hodd, hr14⟩, hrd, hsucc⟩, -⟩, -⟩ := hunp
  obtain ⟨hpc, hpcSucc, hne⟩ := ne_r15_of_even hodd (beq_eq_false_iff_ne.mp hr14)
  have hexec := runCond_of_runs (w := .load) (r := ldrdRule rn rd (hdtAddr mode up rn off)) h rfl
  obtain ⟨hstate, -, -, hstaged⟩ := h
  obtain ⟨hframe, hmem, -, hflush, hcpsr, hdone, hrest⟩ :=
    (pending_afterLdrd rd hstaged (effHdt_wb_ne (base_of_hdtUnpredictable hhdt))).perform_without_r15 (w := .load)
      (ldrdRule_done (effHdt_eq hstate.symm mode up rn off)) (by
        rintro (heq | heq | hfalse)
        exacts [hpcSucc heq.symm, hpc heq.symm, hfalse])
  refine ⟨_, hexec, hframe, fun a => ?_, hflush, hcpsr, ?_, ?_, fun r v hwb => ?_, fun p hp => hrest p ?_⟩
  · rw [hmem, afterLdrd_mem]
  · exact (hdone.value rd (.inr (.inl rfl)) hpc).trans ((if_neg hne).trans (if_pos rfl))
  · exact (hdone.value rd.succ (.inl rfl) hpcSucc).trans (if_pos rfl)
  · refine hdone.base r v hwb fun j hj heq => ?_
    obtain rfl : j = r := phys_inj.mp heq
    obtain rfl | rfl | hfalse := hj
    exacts [effHdt_wb_ne hsucc _ v hwb rfl, effHdt_wb_ne hrd _ v hwb rfl, hfalse]
  · rintro (⟨j, rfl | rfl | hfalse, rfl⟩ | hwb)
    exacts [hp (.inr (.inl rfl)), hp (.inl rfl), hfalse, hp (.inr (.inr hwb))]

/-- STRD: nothing is staged, and the two words share no byte. -/
theorem strd_transfers {s : State} {c : Cond} {mode : IndexMode} {up : Bool} {rn rd : Reg} {off : HdtOffset}
    (h : Runs (.strd c mode up rn rd off) s) (hwf : Memory.wf s.mem = true) :
    let x := s.cur.effHdt mode up rn off
    let lo := x.addr &&& ~~~3#32
    ∃ t, exec (.strd c mode up rn rd off) s = .next t ∧ Frame s t
      ∧ t.cur.needsFlush = s.cur.needsFlush ∧ t.cur.cpsr = s.cur.cpsr
      ∧ t.word lo = s.cur.reg rd ∧ t.word (lo + 4#32) = s.cur.reg rd.succ
      ∧ (∀ b, ¬InAccess .word lo b → ¬InAccess .word (lo + 4#32) b → memByte t.mem b = memByte s.mem b)
      ∧ WbDone s t x.wb ∧ RegsSame (fun p => s.isWb x.wb p) s t := by
  have hunp := unpredictable_of_runs h
  simp only [Instr.unpredictable, Bool.or_eq_false_iff] at hunp
  obtain ⟨⟨hhdt, -⟩, -⟩ := hunp
  have hexec := runCond_of_runs (w := .load) (r := strdRule rn rd (hdtAddr mode up rn off)) h rfl
  obtain ⟨hstate, -, -, hstaged⟩ := h
  obtain ⟨hframe, hmem, -, hflush, hcpsr, hwb, hrest⟩ :=
    (pending_afterStrd rd hstaged (effHdt_wb_ne (base_of_hdtUnpredictable hhdt))).perform_empty (w := .load)
      (strdRule_done (effHdt_eq hstate.symm mode up rn off))
  rw [afterStrd_mem] at hmem
  have hwf' := Memory.wf_memStore hwf (alignWord (s.cur.effHdt mode up rn off).addr) .word (s.cur.reg rd)
  refine ⟨_, hexec, hframe, hflush, hcpsr, ?_, ?_, fun b hlo hhi => ?_, hwb, hrest⟩
  · rw [State.word_eq_memLoad, hmem]
    refine (memLoad_word_congr fun n hn => memByte_memStore_out hwf' .word _ _ ?_).trans
      (memLoad_word_memStore_word hwf _ _)
    have hdisjoint := not_inAccess_word (a := alignWord (s.cur.effHdt mode up rn off).addr) (i := 0) (j := 1)
      (by decide) (by decide) (by decide) hn
    rw [BitVec.add_zero] at hdisjoint
    exact hdisjoint
  · rw [State.word_eq_memLoad, hmem]
    exact memLoad_word_memStore_word hwf' _ _
  · rw [hmem]
    exact (memByte_memStore_out hwf' .word _ _ hhi).trans (memByte_memStore_out hwf .word _ _ hlo)

/-- Settles O49: LDRD stages two different registers, and the two words of STRD share no byte. -/
theorem doublewordTransfers : Obligations.DoublewordTransfers := by
  unfold Obligations.DoublewordTransfers
  exact fun _ _ _ _ _ _ _ => ⟨ldrd_transfers, strd_transfers⟩

/-! ## Swaps -/

/-- The machine after the rule of a swap. -/
def Machine.State.afterSwap (s : State) (kind : LoadKind) (w : Width) (rn rd rm : Reg) : State :=
  let r := kind.loader s.turn s (s.cur.reg rn)
  (r.2.write (w.aligned (s.cur.reg rn)) w (s.cur.reg rm)).stageReg rd (s.cur.reg rn) r.1

/-- What a swap leaves for its writeback stage: one staged register. -/
theorem pending_afterSwap {s : State} (kind : LoadKind) (w : Width) (rn rd rm : Reg)
    (hstaged : s.cur.execSlot.rmask = 0#16) :
    Pending s (s.afterSwap kind w rn rd rm)
      ((Staging.empty s.cur.mode).add rd (kind.value s.turn s (s.cur.reg rn))) none := by
  rw [← LoadKind.loader_value]
  have hread := (Pending.start hstaged s.cur.mode).load kind.loader_reads s.turn (s.cur.reg rn)
  exact (hread.access rfl).stageReg rfl rd (s.cur.reg rn) _

/-- The two accesses of a swap. -/
theorem afterSwap_access (s : State) (kind : LoadKind) (w : Width) (rn rd rm : Reg) :
    (s.afterSwap kind w rn rd rm).mem = memStore s.mem (w.aligned (s.cur.reg rn)) w (s.cur.reg rm)
      ∧ (s.afterSwap kind w rn rd rm).traffic.length = s.traffic.length + 2 := by
  obtain ⟨a, w', hread⟩ := kind.loader_reads s.turn s (s.cur.reg rn)
  simp [State.afterSwap, hread, State.read_snd, State.write]

/-- A swap from its rule, for both widths. -/
theorem swap_exchanges {i : Instr} {s : State} {kind : LoadKind} {w : Width} {rn rd rm : Reg} {r : Rule}
    (h : Runs i s) (hdest : i.unpredictable = false → rd ≠ .r15) (hexec : exec i s = .next (s.perform .load r))
    (hrule : r s.turn s = .done (s.afterSwap kind w rn rd rm)) (hwf : Memory.wf s.mem = true) :
    ∃ t, exec i s = .next t ∧ Frame s t ∧ t.traffic.length = s.traffic.length + 2
      ∧ t.cur.needsFlush = s.cur.needsFlush ∧ t.cur.cpsr = s.cur.cpsr
      ∧ t.cur.regs.get (s.physOf rd) = kind.value s.turn s (s.cur.reg rn)
      ∧ RegsSame (fun p => p = s.physOf rd) s t
      ∧ (∀ n < w.bytes, t.byte (w.aligned (s.cur.reg rn) + BitVec.ofNat 32 n) = (s.cur.reg rm).extractLsb' (8 * n) 8)
      ∧ MemSameOutside w (w.aligned (s.cur.reg rn)) s t := by
  have hrd := hdest (unpredictable_of_runs h)
  obtain ⟨-, -, -, hstaged⟩ := h
  obtain ⟨hmem, htraffic⟩ := afterSwap_access s kind w rn rd rm
  obtain ⟨hframe, hmem', htraffic', hflush, hcpsr, hdone, hrest⟩ :=
    (pending_afterSwap kind w rn rd rm hstaged).perform_without_r15 (w := .load) hrule
      fun hpc => hrd (Staging.has_single.mp hpc).symm
  rw [hmem] at hmem'
  refine ⟨_, hexec, hframe, by rw [htraffic', htraffic], hflush, hcpsr, ?_, fun p hp => hrest p ?_, fun n hn => ?_,
    fun a ha => ?_⟩
  · exact (hdone.value rd (.inl rfl) hrd).trans (if_pos rfl)
  · rintro (⟨j, hj, rfl⟩ | ⟨_, _, hwb, _⟩)
    · exact hp (by rw [Staging.has_single.mp hj]; rfl)
    · cases hwb
  · rw [State.byte, hmem']
    exact memByte_memStore_in hwf _ _ _ hn
  · rw [hmem']
    exact memByte_memStore_out hwf _ _ _ ha

/-- No swap that a core recognizes has r15 as its destination. -/
theorem swap_dest_ne_r15 {c : Cond} {rn rd rm : Reg} (h : (Instr.swp c rn rd rm).unpredictable = false) :
    rd ≠ .r15 := by
  simp only [Instr.unpredictable, Bool.or_eq_false_iff, beq_eq_false_iff_ne, and_assoc] at h
  obtain ⟨hrd, -⟩ := h
  exact hrd

/-- Settles O50: the read comes before the write, and the value read is staged. -/
theorem swapExchanges : Obligations.SwapExchanges := by
  unfold Obligations.SwapExchanges
  intro s c rn rd rm byte
  cases byte with
  | false =>
    exact fun h => swap_exchanges (kind := .word) (w := .word) h swap_dest_ne_r15 (runCond_of_runs h rfl) rfl
  | true =>
    exact fun h => swap_exchanges (kind := .byte) (w := .byte) h (swap_dest_ne_r15 (c := c)) (runCond_of_runs h rfl) rfl

end Sys2Proof
end

section
/-! CERTIFICATE. The block loads: each register of a list from its word, the lowest number from the lowest address
(43_arm_loadstore.md R237 to R239; 45_thumb.md R320, R322). -/

namespace Sys2Proof

open Machine

/-! ## The place of a register in a list -/

theorem regNumber_inj {i j : Reg} (h : regNumber i = regNumber j) : i = j := by
  revert h
  cases i <;> cases j <;> decide

/-- An injective function keeps the place of an element. -/
theorem idxOf_map_of_inj {f : Reg → Nat} (hf : ∀ {i j}, f i = f j → i = j) (l : List Reg) (i : Reg) :
    (l.map f).idxOf (f i) = l.idxOf i := by
  induction l with
  | nil => rfl
  | cons j rest ih =>
    rw [List.map_cons, List.idxOf_cons, List.idxOf_cons, ih]
    by_cases h : j = i
    · rw [h, beq_self_eq_true, beq_self_eq_true]
    · rw [beq_false_of_ne h, beq_false_of_ne fun heq => h (hf heq)]

/-- A register of a list stands after those of smaller number (43_arm_loadstore.md R238). -/
theorem idxOf_regsOf {list : BitVec 16} {i : Reg} (h : listHas list i = true) :
    (regsOf list).idxOf i = setBits list (regNumber i) := by
  have hbit : list.getLsbD (regNumber i) = true := by rwa [listHas, toBits_toNat] at h
  have hsplit : List.range 16 =
      List.range (regNumber i) ++ regNumber i :: List.range' (regNumber i + 1) (15 - regNumber i) := by
    cases i <;> rfl
  rw [← idxOf_map_of_inj regNumber_inj, regsOf_map_regNumber, hsplit, List.filter_append, List.filter_cons, if_pos hbit,
    List.idxOf_append_of_notMem (by simp), List.idxOf_cons_self, Nat.add_zero, setBits]

/-- The next word of a block. -/
theorem add_four_add (a : Word) (n : Nat) : a + 4#32 + BitVec.ofNat 32 (4 * n) = a + BitVec.ofNat 32 (4 * (n + 1)) := by
  rw [BitVec.add_assoc, show 4 * (n + 1) = 4 + 4 * n by omega, BitVec.ofNat_add]

/-- The place of a later register of a list without repetitions. -/
theorem idxOf_cons_of_mem {i j : Reg} {l : List Reg} (hi : i ∉ l) (hj : j ∈ l) : (i :: l).idxOf j = l.idxOf j + 1 :=
  List.idxOf_cons_ne l fun heq => hi (heq ▸ hj)

/-- The block transfer of the statements has the start and the write-back value of the meanings. -/
theorem blockVia_eq (c : CoreState) (bm : BlockMode) (user w : Bool) (rn : Reg) (list : BitVec 16) :
    blockVia c bm user w rn list =
      ⟨list, alignWord (blockStart bm (c.reg rn) (listSpan list)), user,
        if w then some (rn, blockWriteBack bm (c.reg rn) (listSpan list)) else none⟩ := by
  obtain ⟨hstart, hback⟩ := blockRow_eq bm (c.reg rn) list
  rw [blockVia, ← hstart, ← hback]

theorem Machine.State.writeBlockBase_eq_applyWb (s : State) (w : Bool) (rn : Reg) (v : Word) :
    s.writeBlockBase w rn v = s.applyWb (if w then some (rn, v) else none) := by
  cases w <;> rfl

/-! ## The lists of Thumb -/

theorem listHas_popList_r13 (pc : Bool) (list : BitVec 8) : listHas (popList pc list) .r13 = false := by
  change (popList pc list).getLsbD 13 = false
  rw [popList, BitVec.getLsbD_append, BitVec.getLsbD_append]
  simp

theorem listHas_pushList_r15 (lr : Bool) (list : BitVec 8) : listHas (pushList lr list) .r15 = false := by
  change (pushList lr list).getLsbD 15 = false
  rw [pushList, BitVec.getLsbD_append, BitVec.getLsbD_append, BitVec.getLsbD_append]
  simp

theorem listHas_low_r15 (list : BitVec 8) : listHas (list.setWidth 16) .r15 = false := by
  change (list.setWidth 16).getLsbD 15 = false
  simp

theorem listHas_low (rb : LoReg) (list : BitVec 8) :
    listHas (list.setWidth 16) (loReg rb) = list.getLsbD rb.toBits.toNat := by
  have hnumber : (loReg rb).toBits.toNat = rb.toBits.toNat := by cases rb <;> rfl
  have hlt := rb.toBits.isLt
  have hin : rb.toBits.toNat < 16 := by omega
  rw [listHas, hnumber, BitVec.getLsbD_setWidth, decide_eq_true hin, Bool.true_and]

/-! ## Loads -/

/-- A list of registers staged one after the other. -/
def Machine.Staging.addAll (g : Staging) (l : List Reg) (v : Reg → Word) : Staging :=
  ⟨fun j => j ∈ l ∨ g.has j, g.bank, fun j => if j ∈ l then v j else g.value j⟩

theorem Machine.Staging.addAll_value_of_mem (g : Staging) {l : List Reg} (v : Reg → Word) {j : Reg} (h : j ∈ l) :
    (g.addAll l v).value j = v j := if_pos h

theorem Machine.Staging.addAll_value_of_notMem (g : Staging) {l : List Reg} (v : Reg → Word) {j : Reg} (h : j ∉ l) :
    (g.addAll l v).value j = g.value j := if_neg h

/-- The loads of a block stage each register of the list with the word at its place. -/
theorem pending_loadMany {s : State} (user : Bool) {l : List Reg} (hl : l.Nodup) {addr : Word} {u : State} {g : Staging}
    (h : Pending s u g none) (hbank : g.bank = if user then .usr else s.cur.mode) :
    Pending s (loadMany user l addr u)
      (g.addAll l fun j => memLoad u.mem (addr + BitVec.ofNat 32 (4 * l.idxOf j)) .word) none := by
  induction l generalizing addr u g with
  | nil => exact h.congr rfl (fun j => or_iff_right List.not_mem_nil) fun j _ =>
    g.addAll_value_of_notMem _ List.not_mem_nil
  | cons i rest ih =>
    obtain ⟨hi, hrest⟩ := List.nodup_cons.mp hl
    have hread := h.access (t := (u.read addr .word).2) rfl
    have hstage := hread.stage i addr (memLoad u.mem addr .word)
    rw [hbank, ← hread.mode] at hstage
    refine (ih hrest (addr := addr + 4#32) hstage hbank).congr rfl (fun j => ?_) fun j hj => ?_
    · change j ∈ i :: rest ∨ g.has j ↔ j ∈ rest ∨ j = i ∨ g.has j
      rw [List.mem_cons, or_assoc, or_left_comm]
    · by_cases hjrest : j ∈ rest
      · rw [Staging.addAll_value_of_mem _ _ (.tail _ hjrest), Staging.addAll_value_of_mem _ _ hjrest,
          idxOf_cons_of_mem hi hjrest, ← add_four_add]
        rfl
      · rw [Staging.addAll_value_of_notMem _ _ hjrest]
        by_cases hji : j = i
        · rw [hji, Staging.addAll_value_of_mem _ _ (.head _), List.idxOf_cons_self, Nat.mul_zero, BitVec.add_zero]
          exact (if_pos rfl).symm
        · rw [Staging.addAll_value_of_notMem _ _ (by simp [hji, hjrest])]
          exact (if_neg hji).symm

/-- What a block load stages: each register of its list, with its word. -/
def BlockMove.staging (b : BlockMove) (s : State) : Staging :=
  ⟨fun r => listHas b.list r = true, if b.user then .usr else s.cur.mode, fun r => s.word (b.addrOf r)⟩

/-- The machine after the rule of a block load. -/
def Machine.State.afterBlockLoad (s : State) (b : BlockMove) : State :=
  (loadMany b.user (regsOf b.list) b.start s).applyWb b.wb

theorem afterBlockLoad_mem (s : State) (b : BlockMove) : (s.afterBlockLoad b).mem = s.mem := by
  rw [State.afterBlockLoad, State.applyWb_mem, loadMany_mem]

/-- What a block load leaves for its writeback stage. -/
theorem pending_afterBlockLoad {s : State} {b : BlockMove} (hstaged : s.cur.execSlot.rmask = 0#16)
    (hbase : ∀ r v, b.wb = some (r, v) → r ≠ .r15) : Pending s (s.afterBlockLoad b) (b.staging s) b.wb := by
  have hload := pending_loadMany b.user (regsOf_nodup b.list) (addr := b.start)
    (Pending.start hstaged (if b.user then .usr else s.cur.mode)) rfl
  refine Pending.applyWb (hload.congr rfl (fun r => ?_) fun r hr => ?_) hbase
  · change listHas b.list r = true ↔ r ∈ regsOf b.list ∨ False
    rw [or_false, mem_regsOf]
  · rw [Staging.addAll_value_of_mem _ _ (mem_regsOf.mpr hr), idxOf_regsOf hr]
    exact State.word_eq_memLoad s _

/-- What a recognized LDM guarantees of its base (43_arm_loadstore.md R237). -/
theorem ldm_base {c : Cond} {bm : BlockMode} {s w : Bool} {rn : Reg} {list : BitVec 16}
    (h : (Instr.ldm c bm s w rn list).unpredictable = false) :
    rn ≠ .r15 ∧ (w = true → listHas list rn = false ∧ (s = true → listHas list .r15 = true)) := by
  simp only [Instr.unpredictable, ldmUnpredictable, Bool.or_eq_false_iff, beq_eq_false_iff_ne] at h
  obtain ⟨⟨⟨hrn, -⟩, huser⟩, hin⟩ := h
  refine ⟨hrn, fun hw => ?_⟩
  subst hw
  exact ⟨by simpa using hin, fun hs => by simpa [hs] using huser⟩

/-- The rule of LDM: the user bank is meant with S and without r15 (43_arm_loadstore.md R239). -/
theorem ldmRule_done (bm : BlockMode) (s w : Bool) (rn : Reg) (list : BitVec 16) (st : State) :
    ldmRule bm s w rn list st.turn st =
      .done (st.afterBlockLoad (blockVia st.cur bm (s && !listHas list .r15) w rn list)) := by
  rw [blockVia_eq, ldmRule, State.writeBlockBase_eq_applyWb]
  rfl

/-- An LDM that is no exception return: with r15 in its list it has no S. -/
theorem blockLoad?_ldm {c : CoreState} {cond : Cond} {bm : BlockMode} {s w : Bool} {rn : Reg} {list : BitVec 16}
    {b : BlockMove} (hb : (Instr.ldm cond bm s w rn list).blockLoad? c = some b) :
    b = blockVia c bm s w rn list ∧ (s = true → listHas list .r15 = false) := by
  simp only [Instr.blockLoad?] at hb
  split at hb
  · cases hb
  · next hnone =>
    exact ⟨(Option.some.inj hb).symm, fun hs => by simpa [hs] using hnone⟩

/-- Each block load that runs performs a rule that ends as the block load of the statements does, and commits r15 as a
loaded value. -/
theorem exec_blockLoad {i : Instr} {s : State} {b : BlockMove} (hb : i.blockLoad? s.cur = some b) (h : Runs i s) :
    ∃ (w : PcCommit) (r : Rule), exec i s = .next (s.perform w r) ∧ r s.turn s = .done (s.afterBlockLoad b)
      ∧ (listHas b.list .r15 = true → w = .load) := by
  cases i with
  | ldm c bm user w rn list =>
    obtain ⟨rfl, huser⟩ := blockLoad?_ldm hb
    refine ⟨_, _, runCond_of_runs h rfl, ?_, fun hpc => ?_⟩
    · rw [ldmRule_done]
      cases user with
      | false => rfl
      | true =>
        rw [huser rfl]
        rfl
    · cases user with
      | false => rfl
      | true => cases (huser rfl).symm.trans hpc
  | tPop pc list =>
    cases hb
    refine ⟨_, _, runAlways_of_runs h, ?_, fun _ => rfl⟩
    rw [blockVia_eq]
    rfl
  | tLdmia rb list =>
    cases hb
    refine ⟨_, _, runAlways_of_runs h, ?_, fun _ => rfl⟩
    rw [blockVia_eq]
    rfl
  | _ => nomatch hb

/-- The write-back of a block transfer names its base, and only with W. -/
theorem blockVia_wb {c : CoreState} {bm : BlockMode} {user w : Bool} {rn r : Reg} {list : BitVec 16} {v : Word}
    (h : (blockVia c bm user w rn list).wb = some (r, v)) : w = true ∧ r = rn := by
  cases w with
  | false => cases h
  | true =>
    cases h
    exact ⟨rfl, rfl⟩

/-- The write-back of a recognized block load names a register other than r15, outside the list, in the current bank. -/
theorem blockLoad_wb {i : Instr} {c : CoreState} {b : BlockMove} (hb : i.blockLoad? c = some b)
    (h : i.unpredictable = false) :
    ∀ r v, b.wb = some (r, v) → r ≠ .r15 ∧ listHas b.list r = false ∧ b.user = false := by
  intro r v hwb
  cases i with
  | ldm cond bm s w rn list =>
    obtain ⟨rfl, huser⟩ := blockLoad?_ldm hb
    obtain ⟨hw, rfl⟩ := blockVia_wb hwb
    obtain ⟨hrn, hbase⟩ := ldm_base h
    obtain ⟨hout, hpc⟩ := hbase hw
    refine ⟨hrn, hout, Bool.eq_false_iff.mpr fun hs => ?_⟩
    cases (hpc hs).symm.trans (huser hs)
  | tPop pc list =>
    cases hb
    obtain ⟨-, rfl⟩ := blockVia_wb hwb
    exact ⟨by decide, listHas_popList_r13 pc list, rfl⟩
  | tLdmia rb list =>
    cases hb
    obtain ⟨-, rfl⟩ := blockVia_wb hwb
    refine ⟨loReg_ne_r15 rb, ?_, rfl⟩
    simp only [Instr.unpredictable, Bool.or_eq_false_iff] at h
    obtain ⟨-, hout⟩ := h
    exact (listHas_low rb list).trans hout
  | _ => nomatch hb

/-- A block load with r15 is into the current bank. -/
theorem blockLoad_user {i : Instr} {c : CoreState} {b : BlockMove} (hb : i.blockLoad? c = some b)
    (hpc : listHas b.list .r15 = true) : b.user = false := by
  cases i with
  | ldm cond bm s w rn list =>
    obtain ⟨rfl, huser⟩ := blockLoad?_ldm hb
    refine Bool.eq_false_iff.mpr fun hs => ?_
    cases (huser hs).symm.trans hpc
  | tPop | tLdmia =>
    cases hb
    rfl
  | _ => nomatch hb

/-- The base of a write-back gets its value if it is outside the list, in the current bank. -/
theorem wbDone_of_transferred {s t : State} {b : BlockMove} (h : Transferred s t (b.staging s) b.wb)
    (hwb : ∀ r v, b.wb = some (r, v) → listHas b.list r = false ∧ b.user = false) : WbDone s t b.wb := by
  intro r v heq
  obtain ⟨hout, huser⟩ := hwb r v heq
  refine h.base r v heq fun j hj hphys => ?_
  rw [BlockMove.staging, huser] at hphys
  obtain rfl : j = r := phys_inj.mp hphys
  cases hout.symm.trans hj

/-- Settles O51: each register of the list is staged with its word. -/
theorem blockLoads : Obligations.BlockLoads := by
  unfold Obligations.BlockLoads
  intro i s b hb hpc h
  obtain ⟨w, r, hexec, hrule, -⟩ := exec_blockLoad hb h
  have hwb := blockLoad_wb hb (unpredictable_of_runs h)
  obtain ⟨-, -, -, hstaged⟩ := h
  obtain ⟨hframe, hmem, -, hflush, hcpsr, hdone, hrest⟩ :=
    (pending_afterBlockLoad hstaged fun r v heq => (hwb r v heq).1).perform_without_r15 (w := w) hrule
      (Bool.eq_false_iff.mp hpc)
  refine ⟨_, hexec, hframe, fun a => ?_, hflush, hcpsr, fun r hr => hdone.value r hr fun heq => ?_,
    wbDone_of_transferred hdone fun r v heq => (hwb r v heq).2, hrest⟩
  · rw [hmem, afterBlockLoad_mem]
  · rw [heq] at hr
    cases hpc.symm.trans hr

/-- Settles O52: r15 is among the staged registers, and its commit is the branch of a loaded value. -/
theorem blockLoadsIntoPc : Obligations.BlockLoadsIntoPc := by
  unfold Obligations.BlockLoadsIntoPc
  intro i s b hb hpc h
  obtain ⟨w, r, hexec, hrule, hw⟩ := exec_blockLoad hb h
  obtain rfl := hw hpc
  have hwb := blockLoad_wb hb (unpredictable_of_runs h)
  have huser := blockLoad_user hb hpc
  obtain ⟨-, -, -, hstaged⟩ := h
  obtain ⟨hframe, hmem, hflush, hr15, hcpsr, hdone⟩ :=
    (pending_afterBlockLoad hstaged fun r v heq => (hwb r v heq).1).perform_load_r15 hrule hpc
  have hrest := hdone.rest_of_has_r15 hpc
  have hvalue := hdone.value
  have hbank : (b.staging s).bank = s.cur.mode := by rw [BlockMove.staging, huser]; rfl
  rw [hbank] at hrest hvalue
  refine ⟨_, hexec, hframe, fun a => ?_, hflush, hr15, hcpsr, hvalue,
    wbDone_of_transferred hdone fun r v heq => (hwb r v heq).2, hrest⟩
  rw [hmem, afterBlockLoad_mem]

/-! ## Return from an exception -/

/-- Settles O53: r15 is staged, and its commit is the exception return, after the other registers and the write-back. -/
theorem ldmReturns : Obligations.LdmReturns := by
  unfold Obligations.LdmReturns
  intro s c bm w rn list i b psr loaded hpc h
  have hexec := runCond_of_runs (w := .restore) (r := ldmRule bm true w rn list) h rfl
  obtain ⟨hrn, hbase⟩ := ldm_base (unpredictable_of_runs h)
  have hwb : ∀ r v, b.wb = some (r, v) → r ≠ .r15 ∧ listHas b.list r = false ∧ b.user = false := by
    intro r v heq
    obtain ⟨hw, rfl⟩ := blockVia_wb heq
    exact ⟨hrn, (hbase hw).1, rfl⟩
  obtain ⟨-, -, -, hstaged⟩ := h
  have hpending : Pending s (s.afterBlockLoad b) (b.staging s) b.wb :=
    pending_afterBlockLoad hstaged fun r v heq => (hwb r v heq).1
  have hrule : ldmRule bm true w rn list s.turn s = .done (s.afterBlockLoad b) := by
    rw [ldmRule_done, hpc]
    rfl
  have hloaded {t : State} (hmem : t.mem = (s.afterBlockLoad b).mem) (hdone : Transferred s t (b.staging s) b.wb) :
      loaded t :=
    ⟨fun a => by rw [hmem, afterBlockLoad_mem], wbDone_of_transferred hdone fun r v heq => (hwb r v heq).2, hdone.value,
      hdone.rest_of_has_r15 hpc⟩
  refine ⟨fun hlegal => ?_, fun hillegal => ?_⟩
  · obtain ⟨hframe, hmem, hflush, hcpsr, hr15, hdone⟩ := hpending.perform_restore_legal hrule hpc hlegal
    exact ⟨_, hexec, hframe, hloaded hmem hdone, hflush, hcpsr, hr15⟩
  · obtain ⟨hmem, hrunning, hcpsr, hr15, hdiag, hdone⟩ := hpending.perform_restore_illegal hrule hpc hillegal
    exact ⟨_, hexec, hloaded hmem hdone, hrunning, hcpsr, hr15, hdiag⟩

end Sys2Proof
end

section
/-! CERTIFICATE. The block stores: each register of a list into its word, the lowest number at the lowest address
(43_arm_loadstore.md R234, R240; 45_thumb.md R319, R321). -/

namespace Sys2Proof

open Machine

/-- Stores of the same values. -/
theorem storeMany_congr {value value' : Reg → Word} {l : List Reg} (h : ∀ i ∈ l, value i = value' i) (addr : Word)
    (s : State) : storeMany value l addr s = storeMany value' l addr s := by
  induction l generalizing addr s with
  | nil => rfl
  | cons i rest ih =>
    rw [storeMany, storeMany, h i (.head _), ih fun j hj => h j (.tail _ hj)]

/-- The stores of a block stage nothing. -/
theorem pending_storeMany {s : State} (value : Reg → Word) (l : List Reg) {addr : Word} {u : State} {g : Staging}
    {wb : Option (Reg × Word)} (h : Pending s u g wb) : Pending s (storeMany value l addr u) g wb := by
  induction l generalizing addr u with
  | nil => exact h
  | cons i rest ih => exact ih ((h.access rfl).recordAddr i addr)

/-- A byte outside the words of a block keeps its value. -/
theorem storeMany_mem_out (value : Reg → Word) {l : List Reg} {addr : Word} {s : State} (hwf : Memory.wf s.mem = true)
    {a : Nat} (h : ∀ k < l.length, ¬InAccess .word (addr + BitVec.ofNat 32 (4 * k)) a) :
    memByte (storeMany value l addr s).mem a = memByte s.mem a := by
  induction l generalizing addr s with
  | nil => rfl
  | cons i rest ih =>
    have hfirst := h 0 (Nat.zero_lt_succ _)
    rw [Nat.mul_zero, BitVec.add_zero] at hfirst
    rw [storeMany, ih (Memory.wf_memStore hwf addr .word (value i)) fun k hk => ?_]
    · exact memByte_memStore_out hwf .word _ _ hfirst
    · rw [add_four_add]
      exact h (k + 1) (Nat.succ_lt_succ hk)

/-- Each register of a block has its value in the word at its place. -/
theorem storeMany_mem_word (value : Reg → Word) {l : List Reg} (hl : l.Nodup) (hlen : l.length < 2 ^ 16) {addr : Word}
    {s : State} (hwf : Memory.wf s.mem = true) {j : Reg} (hj : j ∈ l) :
    memLoad (storeMany value l addr s).mem (addr + BitVec.ofNat 32 (4 * l.idxOf j)) .word = value j := by
  induction l generalizing addr s with
  | nil => cases hj
  | cons i rest ih =>
    obtain ⟨hi, hrest⟩ := List.nodup_cons.mp hl
    have hwf' := Memory.wf_memStore hwf addr .word (value i)
    rw [List.length_cons] at hlen
    rw [storeMany]
    by_cases hjrest : j ∈ rest
    · rw [idxOf_cons_of_mem hi hjrest, ← add_four_add]
      exact ih hrest (Nat.lt_of_succ_lt hlen) hwf' hjrest
    · obtain rfl : j = i := by simpa [hjrest] using hj
      rw [List.idxOf_cons_self, Nat.mul_zero, BitVec.add_zero]
      refine (memLoad_word_congr fun n hn => storeMany_mem_out value hwf' fun k hk => ?_).trans
        (memLoad_word_memStore_word hwf addr (value j))
      have hdisjoint := not_inAccess_word (a := addr) (i := 0) (j := k + 1) (by omega) (by decide) (by omega) hn
      rw [Nat.mul_zero, BitVec.add_zero, ← add_four_add] at hdisjoint
      exact hdisjoint

/-- The value a block store takes from a register: `A + STR_PC_OFFSET` for r15 (43_arm_loadstore.md R234, R240). -/
def BlockMove.stored (b : BlockMove) (s : State) (r : Reg) : Word :=
  if r = .r15 then s.cur.instrAddr + s.cfg.strPcOffset else s.cur.regs.get (b.bank s r)

/-- The machine after the rule of a block store. -/
def Machine.State.afterBlockStore (s : State) (b : BlockMove) : State :=
  (storeMany (b.stored s) (regsOf b.list) b.start s).applyWb b.wb

/-- What a block store leaves for its writeback stage: nothing staged. -/
theorem pending_afterBlockStore {s : State} {b : BlockMove} (hstaged : s.cur.execSlot.rmask = 0#16)
    (hbase : ∀ r v, b.wb = some (r, v) → r ≠ .r15) :
    Pending s (s.afterBlockStore b) (Staging.empty s.cur.mode) b.wb :=
  (pending_storeMany _ _ (Pending.start hstaged _)).applyWb hbase

/-- The value STM stores is the one of the statements. -/
theorem stmValue_eq_stored (st : State) (list : BitVec 16) (start : Word) (s : Bool) (wb : Option (Reg × Word)) :
    st.stmValue s = BlockMove.stored ⟨list, start, s, wb⟩ st := by
  funext r
  cases s <;> rfl

/-- In the current bank the value of a register other than r15 is the register's. -/
theorem storeMany_reg {s : State} {b : BlockMove} (huser : b.user = false) (hpc : listHas b.list .r15 = false) :
    storeMany (fun i => s.cur.reg i) (regsOf b.list) b.start s = storeMany (b.stored s) (regsOf b.list) b.start s := by
  refine storeMany_congr (fun i hi => ?_) _ _
  have hne : i ≠ .r15 := fun heq => Bool.eq_false_iff.mp hpc (heq ▸ mem_regsOf.mp hi)
  rw [BlockMove.stored, if_neg hne, BlockMove.bank, huser]
  rfl

/-- Each block store that runs performs a rule that ends as the block store of the statements does. -/
theorem exec_blockStore {i : Instr} {s : State} {b : BlockMove} (hb : i.blockStore? s.cur = some b) (h : Runs i s) :
    ∃ r : Rule, exec i s = .next (s.perform .load r) ∧ r s.turn s = .done (s.afterBlockStore b) := by
  cases i with
  | stm c bm user w rn list =>
    cases hb
    refine ⟨_, runCond_of_runs h rfl, ?_⟩
    rw [blockVia_eq, stmRule, State.writeBlockBase_eq_applyWb, State.afterBlockStore, stmValue_eq_stored]
  | tPush lr list =>
    cases hb
    refine ⟨_, runAlways_of_runs h, ?_⟩
    have hvalue := storeMany_reg (s := s) (b := blockVia s.cur .db false true .r13 (pushList lr list)) rfl
      (listHas_pushList_r15 lr list)
    rw [State.afterBlockStore, ← hvalue, blockVia_eq]
    rfl
  | tStmia rb list =>
    cases hb
    refine ⟨_, runAlways_of_runs h, ?_⟩
    have hvalue := storeMany_reg (s := s) (b := blockVia s.cur .ia false true (loReg rb) (list.setWidth 16)) rfl
      (listHas_low_r15 list)
    rw [State.afterBlockStore, ← hvalue, blockVia_eq]
    rfl
  | _ => nomatch hb

/-- No block store that a core recognizes has r15 as its base. -/
theorem blockStore_wb_ne_r15 {i : Instr} {c : CoreState} {b : BlockMove} (hb : i.blockStore? c = some b)
    (h : i.unpredictable = false) : ∀ r v, b.wb = some (r, v) → r ≠ .r15 := by
  intro r v hwb
  cases i with
  | stm cond bm s w rn list =>
    cases hb
    obtain ⟨-, rfl⟩ := blockVia_wb hwb
    simp only [Instr.unpredictable, stmUnpredictable, Bool.or_eq_false_iff, beq_eq_false_iff_ne, and_assoc] at h
    obtain ⟨hrn, -⟩ := h
    exact hrn
  | tPush =>
    cases hb
    obtain ⟨-, rfl⟩ := blockVia_wb hwb
    decide
  | tStmia rb =>
    cases hb
    obtain ⟨-, rfl⟩ := blockVia_wb hwb
    exact loReg_ne_r15 rb
  | _ => nomatch hb

/-- The words of a block store, and the bytes outside them. -/
theorem afterBlockStore_mem {s : State} (b : BlockMove) (hwf : Memory.wf s.mem = true) :
    (∀ r, listHas b.list r = true → memLoad (s.afterBlockStore b).mem (b.addrOf r) .word = b.stored s r)
      ∧ ∀ a, (∀ r, listHas b.list r = true → ¬InAccess .word (b.addrOf r) a) →
        memByte (s.afterBlockStore b).mem a = memByte s.mem a := by
  rw [State.afterBlockStore, State.applyWb_mem]
  have hnodup := regsOf_nodup b.list
  refine ⟨fun r hr => ?_, fun a ha => storeMany_mem_out _ hwf fun k hk => ?_⟩
  · have hlen : (regsOf b.list).length < 2 ^ 16 :=
      (List.length_filter_le _ _).trans_lt (by decide : allRegs.length < 2 ^ 16)
    rw [BlockMove.addrOf, ← idxOf_regsOf hr]
    exact storeMany_mem_word _ hnodup hlen hwf (mem_regsOf.mpr hr)
  · have hr := mem_regsOf.mp (List.getElem_mem hk)
    have hout := ha _ hr
    rwa [BlockMove.addrOf, ← idxOf_regsOf hr, hnodup.idxOf_getElem] at hout

/-- Settles O54: the words of the block share no byte, and nothing is staged. -/
theorem blockStores : Obligations.BlockStores := by
  unfold Obligations.BlockStores
  intro i s b hb h hwf
  obtain ⟨r, hexec, hrule⟩ := exec_blockStore hb h
  have hbase := blockStore_wb_ne_r15 hb (unpredictable_of_runs h)
  obtain ⟨hwords, hout⟩ := afterBlockStore_mem b hwf
  obtain ⟨-, -, -, hstaged⟩ := h
  obtain ⟨hframe, hmem, -, hflush, hcpsr, hwb, hrest⟩ :=
    (pending_afterBlockStore hstaged hbase).perform_empty (w := .load) hrule
  rw [← hmem] at hwords hout
  refine ⟨_, hexec, hframe, hflush, hcpsr, fun r hr => ?_, hout, hwb, hrest⟩
  rw [State.word_eq_memLoad, hwords r hr]
  rfl

end Sys2Proof
end

section
/-! CERTIFICATE. The branches that are taken: each writes the link, if there is one, then the state bit and r15. -/

namespace Sys2Proof

open Machine

/-! ## Targets -/

/-- In ARM state r15 reads as A + 8. -/
theorem Machine.CoreState.reg_r15_of_arm {c : CoreState} (h : psrT c.cpsr = false) :
    c.reg .r15 = c.instrAddr + 8#32 := (armReg_eq_reg h .r15).symm

/-- Zeros appended to a signed field scale it by a power of two. -/
theorem signExtend_append_zero {n m : Nat} (x : BitVec n) :
    (x ++ 0#m).signExtend 32 = BitVec.ofInt 32 (2 ^ m * x.toInt) := by
  rw [BitVec.signExtend, BitVec.toInt_append_zero]

/-- The offset of B and BL: four times the signed field. -/
theorem branchOffset_eq_ofInt (off : BitVec 24) : branchOffset off = BitVec.ofInt 32 (4 * off.toInt) :=
  signExtend_append_zero off

/-- The offset of BLX immediate: four times the signed field, and two more with H. -/
theorem blxOffset_eq_ofInt (off : BitVec 24) (half : Bool) :
    blxOffset off half = BitVec.ofInt 32 (4 * off.toInt + if half then 2 else 0) := by
  rw [blxOffset, signExtend_append_zero, BitVec.toInt_append, if_neg (by decide)]
  congr 1
  cases half <;> simp <;> omega

/-- The offset of the conditional branch of Thumb: twice the signed field. -/
theorem thumbCondOffset_eq_ofInt (off : BitVec 8) : thumbCondOffset off = BitVec.ofInt 32 (2 * off.toInt) :=
  signExtend_append_zero off

/-- The offset of the unconditional branch of Thumb: twice the signed field. -/
theorem thumbOffset_eq_ofInt (off : BitVec 11) : thumbOffset off = BitVec.ofInt 32 (2 * off.toInt) :=
  signExtend_append_zero off

/-- The offset of the second half of BL: twice the field. -/
theorem blSuffixOffset_eq_ofNat (off : BitVec 11) : blSuffixOffset off = BitVec.ofNat 32 (2 * off.toNat) := by
  apply BitVec.eq_of_toNat_eq
  simp [blSuffixOffset, Nat.shiftLeft_eq, Nat.mul_comm]

/-- The offset of the second half of BLX: four times the field, whose last bit is not written. -/
theorem blSuffixOffset_append_zero (off : BitVec 10) :
    blSuffixOffset (off ++ 0#1) = BitVec.ofNat 32 (4 * off.toNat) := by
  rw [blSuffixOffset_eq_ofNat, BitVec.toNat_append]
  congr 1
  simp [Nat.shiftLeft_eq]
  omega

/-! ## What a branch leaves -/

/-- The registers after a branch: the link in r14, if there is one, and the aligned target in r15. -/
def Branch.regs (b : Branch) (c : CoreState) : RegFile :=
  (b.link.elim c.regs (c.regs.set (phys .r14 c.mode))).set .r15 (alignTarget b.thumb b.target)

/-- A rule of core `k` that ends in the branch `b`. -/
def Branch.Taken (b : Branch) (k : CoreId) (c : CoreState) (r : Result CoreState) : Prop :=
  ∃ p, r = .done (c.updated (b.regs c) p true) ∧ p &&& psrMask k = psrSetT c.cpsr b.thumb &&& psrMask k

theorem Branch.regs_r15 (b : Branch) (c : CoreState) : (b.regs c).r15 = alignTarget b.thumb b.target := rfl

theorem Branch.regs_link {b : Branch} {v : Word} (h : b.link = some v) (c : CoreState) :
    (b.regs c).get (phys .r14 c.mode) = v := by
  have hpc : phys .r14 c.mode ≠ .r15 := fun e => absurd (phys_eq_r15.mp e) (by decide)
  rw [Branch.regs, h, RegFile.get_set_ne _ _ hpc]
  exact RegFile.get_set_self _ _ _

theorem Branch.regs_other {b : Branch} {c : CoreState} {p : PhysReg} (hpc : p ≠ .r15)
    (hlink : b.link ≠ none → p ≠ phys .r14 c.mode) : (b.regs c).get p = c.regs.get p := by
  rw [Branch.regs, RegFile.get_set_ne _ _ hpc]
  cases hb : b.link with
  | none => rfl
  | some v => exact RegFile.get_set_ne _ _ (hlink (by simp [hb]))

/-- The core after the link of a branch is written, if there is one. -/
def Machine.CoreState.linked (c : CoreState) (link : Option Word) : CoreState := link.elim c (c.setReg .r14)

/-- The link is written into the registers and nowhere else. -/
theorem Machine.CoreState.linked_eq (c : CoreState) (link : Option Word) :
    c.linked link = { c with regs := link.elim c.regs (c.regs.set (phys .r14 c.mode)) } := by
  cases link with
  | none => rfl
  | some v => exact CoreState.setReg_regs_of_ne c v (show Reg.r14 ≠ .r15 by decide)

/-- A branch that keeps the state. -/
theorem Branch.taken_writePc {b : Branch} {c : CoreState} {v : Word} (hthumb : b.thumb = psrT c.cpsr)
    (hv : v = b.target) (k : CoreId) : b.Taken k c (.done ((c.linked b.link).writePc v)) := by
  refine ⟨c.cpsr, ?_, by rw [hthumb, psrSetT_self]⟩
  rw [CoreState.linked_eq, Branch.regs, hthumb, hv]
  rfl

/-- A branch that writes the state bit. -/
theorem Branch.taken_setT {b : Branch} {c : CoreState} {v : Word} (hv : v = b.target) (k : CoreId) :
    b.Taken k c
      (.done (((c.linked b.link).setCpsr k (psrSetT (c.linked b.link).cpsr b.thumb)).writePc v)) := by
  refine ⟨psrSetT c.cpsr b.thumb &&& psrMask k, ?_, psrMask_mask _ _⟩
  rw [CoreState.setCpsr_writePc, CoreState.linked_eq, Branch.regs, psrT_psrSetT, hv]
  rfl

/-! ## The instructions -/

/-- One of the two unconditional ARM instructions of FAST that runs performs its rule. -/
theorem Machine.runFastUncond_of_runs {i : Instr} {r : Rule} {s : State} (h : Runs i s)
    (hslow : i.recognizedOn .slow = false) : runFastUncond i r s = .next (s.perform .load r) := by
  have ⟨_, hrec, _⟩ := h
  cases hturn : s.turn with
  | fast =>
    rw [runFastUncond, hturn]
    exact runAlways_of_runs h
  | slow =>
    rw [hturn, hslow] at hrec
    cases hrec

/-- Each branch that is taken performs a rule that ends in it. -/
theorem exec_branch {i : Instr} {s : State} {b : Branch} (hb : i.branch? s.cur = some b) (h : Runs i s) :
    ∃ f : CoreRule, exec i s = .next (s.perform .load (onCore f)) ∧ b.Taken s.turn s.cur (f s.turn s.cur) := by
  have ⟨hstate, _⟩ := h
  cases i with
  | b _ off =>
    cases hb
    refine ⟨branchRule (branchOffset off), runCond_of_runs h rfl, Branch.taken_writePc hstate ?_ _⟩
    rw [CoreState.reg_r15_of_arm hstate.symm, branchOffset_eq_ofInt]
  | bl _ off =>
    cases hb
    refine ⟨branchLinkRule (branchOffset off), runCond_of_runs h rfl, Branch.taken_writePc hstate ?_ _⟩
    rw [CoreState.reg_r15_of_arm hstate.symm, branchOffset_eq_ofInt]
  | bx _ rm =>
    cases hb
    exact ⟨bxRule rm, runCond_of_runs h rfl, Branch.taken_setT rfl _⟩
  | blxImm half off =>
    cases hb
    refine ⟨blxImmRule (blxOffset off half), runFastUncond_of_runs h rfl, Branch.taken_setT ?_ _⟩
    rw [CoreState.reg_r15_of_arm hstate.symm, blxOffset_eq_ofInt]
  | blxReg _ rm =>
    cases hb
    exact ⟨blxRule rm fun x => x.instrAddr + 4#32, runCond_of_runs h rfl, Branch.taken_setT rfl _⟩
  | tAddHi rd rm =>
    obtain ⟨rfl, hb⟩ := Option.ite_none_right_eq_some.mp hb
    cases hb
    refine ⟨thumbAddHiRule .r15 rm, runAlways_of_runs h, Branch.taken_writePc hstate ?_ _⟩
    rw [CoreState.reg_r15_of_thumb hstate.symm]
  | tMovHi rd rm =>
    obtain ⟨rfl, hb⟩ := Option.ite_none_right_eq_some.mp hb
    cases hb
    exact ⟨thumbMovHiRule .r15 rm, runAlways_of_runs h, Branch.taken_writePc hstate rfl _⟩
  | tBx rm =>
    cases hb
    exact ⟨bxRule rm, runAlways_of_runs h, Branch.taken_setT rfl _⟩
  | tBlxReg rm =>
    cases hb
    exact ⟨blxRule rm CoreState.thumbLink, runAlways_of_runs h, Branch.taken_setT rfl _⟩
  | tBCond cond off =>
    obtain ⟨hpass, hb⟩ := Option.ite_none_right_eq_some.mp hb
    cases hb
    refine ⟨thumbCondRule cond (thumbCondOffset off), runAlways_of_runs h, ?_⟩
    rw [thumbCondRule, if_pos hpass]
    refine Branch.taken_writePc hstate ?_ _
    rw [CoreState.reg_r15_of_thumb hstate.symm, thumbCondOffset_eq_ofInt]
  | tB off =>
    cases hb
    refine ⟨branchRule (thumbOffset off), runAlways_of_runs h, Branch.taken_writePc hstate ?_ _⟩
    rw [CoreState.reg_r15_of_thumb hstate.symm, thumbOffset_eq_ofInt]
  | tBlSuffix off =>
    cases hb
    refine ⟨blSuffixRule (blSuffixOffset off), runAlways_of_runs h, Branch.taken_writePc hstate ?_ _⟩
    rw [blSuffixOffset_eq_ofNat]
  | tBlxSuffix off =>
    cases hb
    refine ⟨blxSuffixRule (blSuffixOffset (off ++ 0#1)), runAlways_of_runs h, Branch.taken_setT ?_ _⟩
    rw [blSuffixOffset_append_zero]
  | _ => nomatch hb

/-- Settles O55: the rule of the instruction ends in the branch, which writes r14, the state bit and r15. -/
theorem branchesTaken : Obligations.BranchesTaken := by
  unfold Obligations.BranchesTaken
  intro i s b hb h
  obtain ⟨f, hexec, p, hrule, hp⟩ := exec_branch hb h
  obtain ⟨-, -, -, hstaged⟩ := h
  obtain ⟨hframe, hacc, hflush, hregs, hcpsr⟩ := State.perform_updated (w := .load) (onCore_done hrule) hstaged
  refine ⟨_, hexec, hframe, hacc, hflush, ?_, fun v hv => ?_, ?_, fun q hq => ?_⟩
  · rw [hregs, Branch.regs_r15]
  · rw [hregs]
    exact Branch.regs_link hv _
  · rw [hcpsr, hp]
  · obtain ⟨hpc, hlink⟩ := not_or.mp hq
    rw [hregs]
    exact Branch.regs_other hpc fun hne heq => hlink ⟨hne, heq⟩

end Sys2Proof
end

section
/-! CERTIFICATE. SWI in TRAP mode: the entry to SVC mode, field by field. -/

namespace Sys2Proof.Machine

/-! ## Status words outside the fields that are written -/

/-- Replacing a bit outside a mask leaves what the mask selects. -/
theorem putBit_and_of_clear (w : Word) {mask : Word} {i : Nat} (h : mask.getLsbD i = false) (b : Bool) :
    putBit w i b &&& mask = w &&& mask := by
  apply BitVec.eq_of_getLsbD_eq
  intro j hj
  rw [BitVec.getLsbD_and, BitVec.getLsbD_and, getLsbD_putBit]
  by_cases hji : j = i
  · rw [hji, h, Bool.and_false, Bool.and_false]
  · rw [if_neg fun hij => hji hij.1]

/-- Replacing a field outside a mask leaves what the mask selects. -/
theorem putMasked_and_of_clear (w v : Word) {field mask : Word} (h : field &&& mask = 0#32) :
    putMasked w field v &&& mask = w &&& mask := by
  apply BitVec.eq_of_getLsbD_eq
  intro j hj
  have hclear : (field.getLsbD j && mask.getLsbD j) = false := by
    rw [← BitVec.getLsbD_and, h, BitVec.getLsbD_zero]
  rw [BitVec.getLsbD_and, BitVec.getLsbD_and, getLsbD_putMasked]
  cases hmask : mask.getLsbD j with
  | false => rw [Bool.and_false, Bool.and_false]
  | true =>
    rw [hmask, Bool.and_true] at hclear
    rw [hclear]
    rfl

/-! ## The core after an exception entry -/

/-- An exception entry without the F mask leaves every bit but I, T and the mode field. -/
theorem CoreState.enterException_cpsr_rest (c : CoreState) (k : CoreId) (vb : Word) (m : Mode) (o lr : Word) :
    (c.enterException k vb m o lr false).cpsr &&& ~~~0xBF#32 = c.cpsr &&& ~~~0xBF#32 &&& psrMask k := by
  have hkept : psrSetT (psrSetI (psrSetMode c.cpsr m) true) false &&& ~~~0xBF#32 = c.cpsr &&& ~~~0xBF#32 := by
    rw [psrSetT, putBit_and_of_clear _ (by decide), psrSetI, putBit_and_of_clear _ (by decide), psrSetMode,
      putMasked_and_of_clear _ _ (by decide)]
  rw [CoreState.enterException_cpsr, ← hkept, BitVec.and_assoc, BitVec.and_assoc, BitVec.and_comm (psrMask k)]
  rfl

/-- An exception entry sets the IRQ mask bit. -/
theorem CoreState.enterException_psrI (c : CoreState) (k : CoreId) (vb : Word) (m : Mode) (o lr : Word) :
    psrI (c.enterException k vb m o lr false).cpsr = true := by
  rw [CoreState.enterException_cpsr]
  cases k <;> simp [psrI, psrMask, psrSetT, psrSetI]

/-- An exception entry writes the mode field. -/
theorem CoreState.enterException_psrM (c : CoreState) (k : CoreId) (vb : Word) (m : Mode) (o lr : Word) :
    psrM (c.enterException k vb m o lr false).cpsr = m.bits := by
  rw [CoreState.enterException_cpsr]
  simp

/-! ## A rule that writes registers and status registers -/

/-- `d` is `c` with other registers, status registers and flush request. -/
def CoreState.StatusOnly (c d : CoreState) : Prop :=
  d = { c with
    regs := d.regs, cpsr := d.cpsr, spsrFiq := d.spsrFiq, spsrSvc := d.spsrSvc, spsrAbt := d.spsrAbt
    spsrIrq := d.spsrIrq, spsrUnd := d.spsrUnd, needsFlush := d.needsFlush }

theorem CoreState.statusOnly_enterException (c : CoreState) (k : CoreId) (vb : Word) (m : Mode) (o lr : Word)
    (f : Bool) : c.StatusOnly (c.enterException k vb m o lr f) := by
  unfold CoreState.StatusOnly
  cases m <;> rfl

/-- The frame of a rule that writes registers and status registers: the fields are as the rule left them. -/
theorem State.perform_statusOnly {s : State} {d : CoreState} (hd : s.cur.StatusOnly d) {w : PcCommit} {r : Rule}
    (hr : r s.turn s = .done (s.setCur d)) (he : s.cur.execSlot.rmask = 0#16) :
    StatusFrame s (s.perform w r) ∧ (s.perform w r).cur.regs = d.regs ∧ (s.perform w r).cur.cpsr = d.cpsr
      ∧ (s.perform w r).cur.needsFlush = d.needsFlush
      ∧ ∀ m, m ≠ .usr → m ≠ .sys → (s.perform w r).cur.spsrOf m = d.spsrOf m := by
  have hslot : ∀ j, d.slot j = s.cur.slot j := fun j => by
    rw [hd]
    rfl
  have hexec : d.execSlot = s.cur.execSlot := by
    rw [hd]
    rfl
  obtain ⟨n, hn, ht⟩ := State.perform_of_done_pos (w := w) hr (by rw [State.setCur_cur, hexec]; exact he)
  obtain ⟨hfields, hslots⟩ := d.scratchOnly_finish
  rw [State.onCur, State.setCur_setCur, State.setCur_cur] at ht
  rw [ht]
  unfold StatusFrame
  rw [State.setCur_cur]
  refine ⟨⟨?_, fun j => ?_, ?_, ?_⟩, ?_, ?_, ?_, fun m husr hsys => ?_⟩
  · rw [hfields, hd]
    rfl
  · rw [CoreState.slot_charge, ← hslot j]
    exact hslots j
  · rw [CoreState.execSlot_charge, CoreState.execSlot_clearStaged_rmask]
  · rw [hd]
    simp [hn]
  · simp
  · simp
  · simp
  · cases m with
    | usr => exact absurd rfl husr
    | sys => exact absurd rfl hsys
    | fiq | svc | abt | irq | und => simp [CoreState.spsrOf]

/-! ## The instruction -/

/-- SWI of both instruction sets that runs performs the rule of its service number. -/
theorem exec_swi {i : Instr} {s : State} {n : BitVec 8} (hn : i.swi? = some n) (h : Runs i s) :
    exec i s = .next (s.perform .load (swiRule n)) := by
  cases i with
  | swi c comment =>
    cases hn
    exact runCond_of_runs h rfl
  | tSwi m =>
    cases hn
    exact runAlways_of_runs h
  | _ => nomatch hn

/-- Settles O57: the rule of the instruction is the exception entry, whose fields are known one by one. -/
theorem swiTraps : Obligations.SwiTraps := by
  unfold Obligations.SwiTraps
  intro i s n hn htrap h
  have hexec := exec_swi hn h
  obtain ⟨-, -, -, hstaged⟩ := h
  obtain ⟨hframe, hregs, hcpsr, hflush, hspsr⟩ := State.perform_statusOnly (w := .load)
    (CoreState.statusOnly_enterException ..) (swiRule_trap (n := n) (k := s.turn) htrap) hstaged
  refine ⟨_, hexec, hframe, hflush, ?_, ?_, ?_, ?_, ?_, ?_, ?_, ?_, ?_, ?_, ?_, fun p hp => ?_⟩
  · exact (hspsr .svc (by decide) (by decide)).trans
      (CoreState.enterException_spsrOf _ _ _ _ _ _ _ (by decide) (by decide))
  · exact hspsr .fiq (by decide) (by decide)
  · exact hspsr .abt (by decide) (by decide)
  · exact hspsr .irq (by decide) (by decide)
  · exact hspsr .und (by decide) (by decide)
  · rw [hcpsr, CoreState.enterException_psrM]
    rfl
  · rw [hcpsr, CoreState.enterException_psrI]
  · rw [hcpsr, CoreState.enterException_psrT]
  · rw [hcpsr, CoreState.enterException_cpsr_rest]
  · rw [hregs]
    exact CoreState.enterException_get _ _ _ .svc _ _ _ .r14Svc (by decide)
  · rw [hregs, CoreState.enterException_r15]
    rfl
  · obtain ⟨hpc, hlr⟩ := not_or.mp hp
    rw [hregs, CoreState.enterException_get _ _ _ _ _ _ _ _ hpc]
    exact if_neg hlr

end Sys2Proof.Machine
end

section
/-! CERTIFICATE. MCR and MRC: the request to the Cp15 is recorded first, and the rest is an ordinary instruction of the
machine with that record. -/

namespace Sys2Proof.Machine

/-! ## The idle state -/

/-- The core with another idle state and other latches. -/
def CoreState.idled (c : CoreState) (idle : IdleState) (count sel : Word) : CoreState :=
  { c with idleState := idle, waitCount := count, waitAnySel := sel }

/-- The frame of a rule that writes the idle state, its latches and the ports. -/
theorem State.perform_idled {s : State} {w : PcCommit} {r : Rule} {p : Ports} {idle : IdleState} {count sel : Word}
    (hr : r s.turn s = .done ((s.setPorts p).setCur (s.cur.idled idle count sel)))
    (he : s.cur.execSlot.rmask = 0#16) :
    IdleFrame s (s.perform w r) ∧ (s.perform w r).curPorts = p ∧ (s.perform w r).cur.idleState = idle
      ∧ (s.perform w r).cur.waitCount = count ∧ (s.perform w r).cur.waitAnySel = sel := by
  obtain ⟨n, hn, ht⟩ := State.perform_of_done_pos (w := w) hr (by rw [State.setCur_cur]; exact he)
  obtain ⟨hfields, hslots⟩ := (s.cur.idled idle count sel).scratchOnly_finish
  rw [State.onCur, State.setCur_setCur, State.setCur_cur] at ht
  have hports : ((s.setPorts p).setCur ((s.cur.idled idle count sel).accessMem.clearStaged.charge n)).curPorts = p :=
    PerCore.get_set_self _ _ _
  rw [ht]
  unfold IdleFrame
  rw [State.setCur_cur, hports]
  refine ⟨⟨?_, hslots, CoreState.execSlot_clearStaged_rmask _, ?_⟩, rfl, ?_⟩
  · rw [hfields]
    rfl
  all_goals simp [CoreState.idled, hn]

/-- Replacing the ports by themselves. -/
theorem State.setPorts_self (s : State) : s.setPorts s.curPorts = s := by
  rw [State.setPorts, State.curPorts, PerCore.set_get]

/-! ## The record of requests -/

/-- The machine after a request to the Cp15 is recorded, if one is given (44_arm_branch_system.md R256). -/
def State.logged (s : State) (e : Cp15Event) : State :=
  { s with cp15Log := if s.cfg.cp15 then s.cp15Log ++ [e] else s.cp15Log }

/-- What a read of the Cp15 answers (44_arm_branch_system.md R255). -/
def State.cp15Value (s : State) (r : Cp15Reg) : Word := if s.cfg.cp15 then Config.cp15Answer s.cp15Log r else 0#32

theorem State.cp15Write_eq (s : State) (r : Cp15Reg) (v : Word) : s.cp15Write r v = s.logged (.write r v) := by
  unfold State.cp15Write State.logged
  split <;> rfl

theorem State.cp15Read_eq (s : State) (r : Cp15Reg) : s.cp15Read r = (s.cp15Value r, s.logged (.read r)) := by
  unfold State.cp15Read State.cp15Value State.logged
  split <;> rfl

/-- A rule may record its request before it starts: no stage after the rule reads the record. -/
theorem State.perform_logged {s t : State} {w : PcCommit} {r : Rule} (h : r s.turn s = .done t) (e : Cp15Event) :
    s.perform w r = (s.logged e).perform w fun _ _ => .done t := by
  simp only [State.perform, h]
  rfl

/-! ## The rules -/

theorem CoreState.cp15Denied_iff {c : CoreState} : c.cp15Denied = true ↔ psrMode? c.cpsr = some .usr := beq_iff_eq

theorem isWaitForInterrupt_iff {op1 op2 : BitVec 3} {crn crm : BitVec 4} :
    isWaitForInterrupt ⟨op1, crn, crm, op2⟩ = true ↔
      op1 = 0#3 ∧ crn = 7#4 ∧ ((crm = 0#4 ∧ op2 = 4#3) ∨ (crm = 8#4 ∧ op2 = 2#3)) := by
  simp [isWaitForInterrupt, and_assoc]

/-- In user mode the access stops the core (44_arm_branch_system.md R253). -/
theorem State.perform_cp15Stop {s : State} {w : PcCommit} {r : Rule} (h : r s.turn s = s.cp15Stop) :
    Stopped s (s.perform w r) ⟨.unrecognized, s.cur.execSlot.word, s.cur.instrAddr⟩ := by
  rw [State.perform_of_stop h]
  rfl

/-- MCR outside user mode: the request, and the idle state of the wait-for-interrupt operations. -/
theorem mcrRule_done {s : State} (h : s.cur.cp15Denied = false) (r : Cp15Reg) (rd : Reg) (k : CoreId) :
    mcrRule r rd k s = .done ((s.logged (.write r (s.cur.reg rd))).setCur
      (s.cur.idled (if isWaitForInterrupt r then .halted else s.cur.idleState) s.cur.waitCount s.cur.waitAnySel)) := by
  simp only [mcrRule, h, State.cp15Write_eq]
  cases isWaitForInterrupt r with
  | true => rfl
  | false => exact congrArg Result.done (State.setCur_self _).symm

/-- MRC outside user mode into a register: the request, and the answer into Rd. -/
theorem mrcRule_reg {s : State} (h : s.cur.cp15Denied = false) (r : Cp15Reg) {rd : Reg} (hrd : rd ≠ .r15)
    (k : CoreId) :
    mrcRule r rd k s = .done ((s.logged (.read r)).setCur
      (s.cur.updated (s.cur.regs.set (s.physOf rd) (s.cp15Value r)) s.cur.cpsr s.cur.needsFlush)) := by
  simp only [mrcRule, h, State.cp15Read_eq, if_neg hrd, CoreState.setReg_regs_of_ne _ _ hrd]
  rfl

/-- MRC outside user mode into r15: the request, and the four flags. -/
theorem mrcRule_r15 {s : State} (h : s.cur.cp15Denied = false) (r : Cp15Reg) (k : CoreId) :
    mrcRule r .r15 k s = .done ((s.logged (.read r)).setCur
      (s.cur.updated s.cur.regs (flagsFrom s.cur.cpsr (s.cp15Value r) &&& psrMask k) s.cur.needsFlush)) := by
  simp only [mrcRule, h, State.cp15Read_eq]
  rfl

/-- The four flags come from the answer (44_arm_branch_system.md R255). -/
theorem flagsFrom_flags (cpsr v : Word) (k : CoreId) :
    psrN (flagsFrom cpsr v &&& psrMask k) = v.getLsbD 31 ∧ psrZ (flagsFrom cpsr v &&& psrMask k) = v.getLsbD 30
      ∧ psrC (flagsFrom cpsr v &&& psrMask k) = v.getLsbD 29
      ∧ psrV (flagsFrom cpsr v &&& psrMask k) = v.getLsbD 28 := by
  cases k <;> simp [psrN, psrZ, psrC, psrV, flagsFrom, psrMask]

/-- Every bit but the four flags stays. -/
theorem flagsFrom_rest (cpsr v : Word) (k : CoreId) :
    flagsFrom cpsr v &&& psrMask k &&& ~~~0xF0000000#32 = cpsr &&& ~~~0xF0000000#32 &&& psrMask k := by
  have hkept : flagsFrom cpsr v &&& ~~~0xF0000000#32 = cpsr &&& ~~~0xF0000000#32 :=
    putMasked_and_of_clear cpsr v (by decide)
  rw [← hkept, BitVec.and_assoc, BitVec.and_assoc, BitVec.and_comm (psrMask k)]

/-! ## The instructions -/

/-- A state framed from the one with the request on record has that record. -/
theorem frame_logged {s t : State} {e : Cp15Event} (h : Frame (s.logged e) t) :
    Frame { s with cp15Log := t.cp15Log } t ∧ t.cp15Log = (s.logged e).cp15Log := by
  have ⟨hfields, _⟩ := h
  have hlog : t.cp15Log = (s.logged e).cp15Log := (congrArg State.cp15Log hfields :)
  rw [hlog]
  exact ⟨h, rfl⟩

/-- The same of the frame of an idle state. -/
theorem idleFrame_logged {s t : State} {e : Cp15Event} (h : IdleFrame (s.logged e) t) :
    IdleFrame { s with cp15Log := t.cp15Log } t ∧ t.cp15Log = (s.logged e).cp15Log := by
  have ⟨hfields, _⟩ := h
  have hlog : t.cp15Log = (s.logged e).cp15Log := (congrArg State.cp15Log hfields :)
  rw [hlog]
  exact ⟨h, rfl⟩

/-- MCR outside user mode, performed. -/
theorem mcr_performed {s : State} (hpriv : s.cur.cp15Denied = false) (hstaged : s.cur.execSlot.rmask = 0#16)
    (r : Cp15Reg) (rd : Reg) :
    ∃ t, s.perform .load (mcrRule r rd) = t ∧ IdleFrame (s.logged (.write r (s.cur.reg rd))) t
      ∧ t.curPorts = s.curPorts ∧ t.cur.idleState = (if isWaitForInterrupt r then .halted else s.cur.idleState)
      ∧ t.cur.waitCount = s.cur.waitCount ∧ t.cur.waitAnySel = s.cur.waitAnySel := by
  refine ⟨_, State.perform_logged (mcrRule_done hpriv r rd s.turn) (.write r (s.cur.reg rd)), ?_⟩
  refine State.perform_idled (congrArg (fun u : State => Result.done (u.setCur _)) ?_) hstaged
  exact (State.setPorts_self (s.logged _)).symm

/-- A rule that records a request and updates the core, performed. -/
theorem perform_logged_updated {s : State} {r : Rule} {e : Cp15Event} {regs : RegFile} {cpsr : Word} {flush : Bool}
    (hr : r s.turn s = .done ((s.logged e).setCur (s.cur.updated regs cpsr flush)))
    (hstaged : s.cur.execSlot.rmask = 0#16) :
    ∃ t, s.perform .load r = t ∧ Frame (s.logged e) t ∧ NoAccess (s.logged e) t ∧ t.cur.needsFlush = flush
      ∧ t.cur.regs = regs ∧ t.cur.cpsr = cpsr :=
  ⟨_, State.perform_logged hr e, State.perform_updated (s := s.logged e) rfl hstaged⟩

/-- Settles O60: in user mode the rule stops; otherwise the request is recorded, and MCR writes at most the idle state,
MRC one register or the flags. -/
theorem cp15Transfers : Obligations.Cp15Transfers := by
  unfold Obligations.Cp15Transfers
  intro s c op1 crn rd op2 crm r wfi v user log stop mcr mrc
  have hpriv (hn : ¬user) : s.cur.cp15Denied = false := Bool.eq_false_iff.mpr (hn ∘ CoreState.cp15Denied_iff.mp)
  refine ⟨fun h hu => ?_, fun h hu => ?_, fun h hn => ?_, fun h hn => ?_⟩
  · exact ⟨_, runCond_of_runs h rfl, State.perform_cp15Stop (if_pos (CoreState.cp15Denied_iff.mpr hu))⟩
  · exact ⟨_, runCond_of_runs h rfl, State.perform_cp15Stop (if_pos (CoreState.cp15Denied_iff.mpr hu))⟩
  · have hexec : exec mcr s = .next (s.perform .load (mcrRule r rd)) := runCond_of_runs h rfl
    obtain ⟨-, -, -, hstaged⟩ := h
    obtain ⟨t, ht, hframe, hports, hidle, hcount, hsel⟩ := mcr_performed (hpriv hn) hstaged r rd
    obtain ⟨hframe, hlog⟩ := idleFrame_logged hframe
    rw [ht] at hexec
    refine ⟨t, hexec, hframe, hlog, hports, hcount, hsel, fun hw => ?_, fun hw => ?_⟩
    · rw [hidle, if_pos (isWaitForInterrupt_iff.mpr hw)]
    · rw [hidle, if_neg fun hi => hw (isWaitForInterrupt_iff.mp hi)]
  · have hexec : exec mrc s = .next (s.perform .load (mrcRule r rd)) := runCond_of_runs h rfl
    obtain ⟨-, -, -, hstaged⟩ := h
    by_cases hrd : rd = .r15
    · subst hrd
      obtain ⟨t, ht, hframe, hacc, hflush, hregs, hcpsr⟩ :=
        perform_logged_updated (mrcRule_r15 (hpriv hn) r s.turn) hstaged
      obtain ⟨hframe, hlog⟩ := frame_logged hframe
      obtain ⟨hN, hZ, hC, hV⟩ := flagsFrom_flags s.cur.cpsr v s.turn
      rw [ht] at hexec
      refine ⟨t, hexec, hframe, hacc, hlog, hflush, fun hne => absurd rfl hne, fun _ => ?_⟩
      rw [hcpsr]
      exact ⟨fun p _ => by rw [hregs], hN, hZ, hC, hV, flagsFrom_rest s.cur.cpsr v s.turn⟩
    · obtain ⟨t, ht, hframe, hacc, hflush, hregs, hcpsr⟩ :=
        perform_logged_updated (mrcRule_reg (hpriv hn) r hrd s.turn) hstaged
      obtain ⟨hframe, hlog⟩ := frame_logged hframe
      rw [ht] at hexec
      refine ⟨t, hexec, hframe, hacc, hlog, hflush, fun _ => ⟨?_, fun p hp => ?_, hcpsr⟩,
        fun h15 => absurd h15 hrd⟩
      · rw [hregs]
        exact RegFile.get_set_self _ _ _
      · rw [hregs]
        exact RegFile.get_set_ne _ _ hp

end Sys2Proof.Machine
end

section
/-! CERTIFICATE. The budget: what settling it does, and that it tells how far FAST is ahead of twice SLOW. -/

namespace Sys2Proof.Machine

/-! ## Settling the budget -/

/-- With exactly one turn, the core that holds it is the bus owner (60_exceptions.md R388). -/
theorem State.TurnInv.turn_eq {s : State} (h : s.TurnInv) : s.turn = s.busOwner := by
  rw [State.turnInv_iff] at h
  unfold State.turn
  cases hb : s.busOwner <;> simp [h, hb]

/-- With exactly one turn, a handoff names the other core (60_exceptions.md R385). -/
theorem State.TurnInv.handoff_eq {s : State} (h : s.TurnInv) :
    let other : CoreId := if s.busOwner = .fast then .slow else .fast
    s.handoff = { s with budget := -s.budget, busOwner := other, myTurn := ⟨other == .fast, other == .slow⟩ } := by
  rw [State.turnInv_iff] at h
  unfold State.handoff
  cases hb : s.busOwner <;> rw [h, hb] <;> rfl

/-- The budget stays above 0 (60_exceptions.md R382). -/
theorem State.settle_of_pos {s : State} (h : 0 < s.budget - tickCost s.turn s.cur.cycles) :
    s.settle = { s with budget := s.budget - tickCost s.turn s.cur.cycles } :=
  if_neg (not_le.mpr h)

/-- The budget falls to 0 or below (60_exceptions.md R382). -/
theorem State.settle_of_nonpos {s : State} (h : s.budget - tickCost s.turn s.cur.cycles ≤ 0) :
    s.settle = State.handoff { s with budget := s.budget - tickCost s.turn s.cur.cycles } :=
  if_pos h

/-- The cost of a tick by the bus owner (60_exceptions.md R383). -/
theorem State.TurnInv.tickCost_eq {s : State} (h : s.TurnInv) :
    tickCost s.turn s.cur.cycles = if s.busOwner = .fast then (s.cur.cycles : Int) else 2 * s.cur.cycles := by
  rw [h.turn_eq]
  cases s.busOwner <;> rfl

/-- Settles O21: the two branches of the settling, with the cost and the handoff by the bus owner. -/
theorem settleHandsOff : Obligations.SettleHandsOff := by
  unfold Obligations.SettleHandsOff
  intro s hs cost b other
  have hcost : tickCost s.turn s.cur.cycles = cost := hs.tickCost_eq
  refine ⟨fun hpos => ?_, fun hnonpos => ?_⟩
  · rw [State.settle_of_pos (by rwa [hcost]), hcost]
  · rw [State.settle_of_nonpos (by rwa [hcost]), hcost]
    exact State.TurnInv.handoff_eq (s := { s with budget := s.budget - cost }) hs

/-! ## The drift -/

/-- No elementary change charges the budget. -/
theorem Change.budget {outer : Prop} {s t : State} (h : Change outer s t) : t.budget = s.budget := by
  cases h with
  | core | ports => rfl
  | shared t h => rw [h]

theorem Changes.budget {outer : Prop} {s t : State} (h : Changes outer s t) : t.budget = s.budget := by
  induction h with
  | refl => rfl
  | tail _ hbc ih => exact hbc.budget.trans ih

/-- The flags of the turn and the bus owner are all that the invariant of the turn speaks of. -/
theorem SameElsewhere.turnInv {s t : State} (h : SameElsewhere s t) (hs : s.TurnInv) : t.TurnInv := by
  rw [State.turnInv_iff] at hs ⊢
  rw [h.myTurn, h.busOwner, hs]

/-- How far the core that holds the turn is behind the other one, in FAST cycles, when FAST has been charged `fast`
cycles and SLOW `slow` cycles (60_exceptions.md R387). -/
def lag (owner : CoreId) (fast slow : Int) : Int := if owner = .fast then 2 * slow - fast else fast - 2 * slow

/-- Settling charges the tick to the core that held the turn: the budget is the lag of whichever core holds it after. -/
theorem State.settle_lag {s : State} (hs : s.TurnInv) {fast slow : Int} (h : s.budget = lag s.busOwner fast slow) :
    s.settle.budget = lag s.settle.busOwner
      (if s.busOwner = .fast then fast + s.cur.cycles else fast)
      (if s.busOwner = .fast then slow else slow + s.cur.cycles) := by
  obtain ⟨hkeeps, hpasses⟩ := settleHandsOff s hs
  rcases lt_or_ge 0 (s.budget - if s.busOwner = .fast then (s.cur.cycles : Int) else 2 * s.cur.cycles) with hpos | hneg
  · rw [hkeeps hpos, h]
    cases s.busOwner <;> simp [lag] <;> omega
  · rw [hpasses hneg, h]
    cases s.busOwner <;> simp [lag] <;> omega

/-- Settles O22: the work of a tick is elementary changes, which leave the budget and the turn alone, and one settling,
which charges the tick. -/
theorem budgetTracksDrift : Obligations.BudgetTracksDrift := by
  unfold Obligations.BudgetTracksDrift
  intro s t fast slow hs hbudget hwork n fast' slow'
  obtain ⟨u, hsu, rfl⟩ := work_changes hwork
  have hsame := Changes.sameElsewhere hsu
  have hu : u.TurnInv := hsame.turnInv hs
  have hcycles : n = u.cur.cycles := by
    obtain ⟨hcores, -⟩ := u.settle_frame
    rw [State.cur, hu.turn_eq, hsame.busOwner, ← hcores]
  have hlag : u.budget = lag u.busOwner fast slow := by
    rw [Changes.budget hsu, hsame.busOwner, hbudget]
    rfl
  have hsettled := State.settle_lag hu hlag
  rw [hsame.busOwner, ← hcycles] at hsettled
  exact hsettled

end Sys2Proof.Machine
end

section
/-! CERTIFICATE. The idle step, and the interrupt dispatch. -/

namespace Sys2Proof.Machine

/-! ## The idle step -/

/-- The machine after an idle step that leaves the given idle state, counter and ports, with its charge
(60_exceptions.md R379). -/
def State.idledTo (s : State) (idle : IdleState) (count : Word) (p : Ports) : State :=
  (s.setPorts p).setCur { s.cur with
    idleState := idle, waitCount := count, cycles := s.cur.cycles + s.cfg.idleCycles s.turn }

/-- A core that stays in its idle state is charged and nothing else. -/
theorem State.charge_eq_idledTo (s : State) :
    (s.onCur fun c => c.charge (s.cfg.idleCycles s.turn)) = s.idledTo s.cur.idleState s.cur.waitCount s.curPorts := by
  rw [State.idledTo, State.setPorts_self]
  rfl

/-- The idle step of HALTED (60_exceptions.md R372). -/
theorem State.idleStep_halted {s : State} (h : s.cur.idleState = .halted) :
    s.idleStep = s.idledTo (if s.curPorts.match s.turn ≠ 0#32 then .running else .halted) s.cur.waitCount s.curPorts := by
  simp only [State.idleStep, h, State.idleHalted, bne_iff_ne]
  split
  · rw [State.onCur_onCur, State.idledTo, State.setPorts_self]
    rfl
  · rw [State.charge_eq_idledTo, h]

/-- The counter of WAIT_LOOP after an idle step (60_exceptions.md R370). -/
def CoreState.nextWaitCount (c : CoreState) : Word := if c.waitCount = 0#32 then 0#32 else c.waitCount - 1#32

/-- The last idle step of WAIT_LOOP is the one from a counter of 1 or 0. -/
theorem CoreState.nextWaitCount_eq_zero_iff {c : CoreState} : c.nextWaitCount = 0#32 ↔ c.waitCount.toNat ≤ 1 := by
  unfold CoreState.nextWaitCount
  split
  · next hzero => simp [hzero]
  · bv_omega

/-- Above 1 the counter of WAIT_LOOP goes down. -/
theorem CoreState.nextWaitCount_of_pos {c : CoreState} (h : 1 < c.waitCount.toNat) :
    c.nextWaitCount = c.waitCount - 1#32 :=
  if_neg (by bv_omega)

/-- The idle step of WAIT_LOOP (60_exceptions.md R370). -/
theorem State.idleStep_waitLoop {s : State} (h : s.cur.idleState = .waitLoop) :
    s.idleStep =
      s.idledTo (if s.cur.nextWaitCount = 0#32 then .running else .waitLoop) s.cur.nextWaitCount s.curPorts := by
  simp only [State.idleStep, h]
  rw [State.idleWaitLoop, State.onCur_onCur, State.idledTo, State.setPorts_self, ← h]
  rfl

/-- The idle step of WAIT_INTERRUPT (60_exceptions.md R371). -/
theorem State.idleStep_waitInterrupt {s : State} (h : s.cur.idleState = .waitInterrupt) :
    s.idleStep =
      if s.waitOver then
        s.idledTo .running s.cur.waitCount
          { s.curPorts with ie := s.curPorts.ieSaved, iflag := s.curPorts.ifSaved ||| s.curPorts.iflag }
      else s.idledTo .waitInterrupt s.cur.waitCount s.curPorts := by
  simp only [State.idleStep, h, State.idleWaitInterrupt]
  split
  · rw [State.onCur_onCur]
    rfl
  · rw [State.charge_eq_idledTo, h]

/-- The exit test of WAIT_INTERRUPT (60_exceptions.md R371). -/
theorem State.waitOver_iff {s : State} :
    s.waitOver = true ↔
      (s.cur.waitAnySel = 0#32 ∧ s.curPorts.iflag &&& lineMask s.turn ≠ 0#32) ∨ s.curPorts.match s.turn ≠ 0#32 := by
  simp [State.waitOver]

/-- Settles O23: the three idle states, each with its test. -/
theorem idleStepRules : Obligations.IdleStepRules := by
  unfold Obligations.IdleStepRules
  intro s c p found any after
  refine ⟨fun h hfound => ?_, fun h hfound => ?_, fun h hcount => ?_, fun h hcount => ?_, fun h hover => ?_,
    fun h hover => ?_⟩
  · have hmatch : s.curPorts.match s.turn ≠ 0#32 := hfound
    rw [State.idleStep_halted h, if_pos hmatch]
    rfl
  · have hmatch : ¬s.curPorts.match s.turn ≠ 0#32 := hfound
    rw [State.idleStep_halted h, if_neg hmatch]
    rfl
  · have hzero : s.cur.nextWaitCount = 0#32 := CoreState.nextWaitCount_eq_zero_iff.mpr hcount
    rw [State.idleStep_waitLoop h, if_pos hzero, hzero]
    rfl
  · have hmore : s.cur.nextWaitCount ≠ 0#32 := mt CoreState.nextWaitCount_eq_zero_iff.mp (Nat.not_le.mpr hcount)
    rw [State.idleStep_waitLoop h, if_neg hmore, CoreState.nextWaitCount_of_pos hcount]
    rfl
  · rw [State.idleStep_waitInterrupt h, if_pos (State.waitOver_iff.mpr hover)]
    rfl
  · rw [State.idleStep_waitInterrupt h, if_neg (mt State.waitOver_iff.mp hover)]
    rfl

/-! ## The interrupt dispatch -/

/-- The test of the interrupt dispatch (60_exceptions.md R360). -/
theorem State.irqPending_iff {s : State} :
    s.irqPending = true ↔
      s.curPorts.ime.getLsbD 0 = true ∧ psrI s.cur.cpsr = false ∧ s.curPorts.match s.turn ≠ 0#32 := by
  simp [State.irqPending, and_assoc]

/-- What an interrupt entry changes of a core: the registers, cpsr, spsr_irq and the flush request. -/
theorem CoreState.enterException_irq_eq (c : CoreState) (k : CoreId) (vb o lr : Word) (f : Bool) :
    c.enterException k vb .irq o lr f = { c with
      regs := (c.enterException k vb .irq o lr f).regs, cpsr := (c.enterException k vb .irq o lr f).cpsr
      spsrIrq := c.cpsr &&& psrMask k, needsFlush := true } := rfl

/-- Settles O24: the entry of the exception with its fields one by one, or no change. -/
theorem irqDispatchEnters : Obligations.IrqDispatchEnters := by
  unfold Obligations.IrqDispatchEnters
  intro s c p t nia pending
  refine ⟨fun hpending => ?_, fun hnone => if_neg (mt State.irqPending_iff.mp hnone)⟩
  have ht : t = s.setCur
      (c.enterException s.turn (s.cfg.vbase.get s.turn) .irq 0x18#32 (c.nextInstr + 4#32) false) :=
    State.irqDispatch_of_pending (State.irqPending_iff.mpr hpending)
  rw [ht, State.setCur_cur]
  refine ⟨?_, ?_, ?_, ?_, ?_, ?_, ?_, fun q hq => ?_⟩
  · rw [← CoreState.enterException_irq_eq]
    rfl
  · exact CoreState.enterException_psrM ..
  · exact CoreState.enterException_psrI ..
  · exact CoreState.enterException_psrT ..
  · exact CoreState.enterException_cpsr_rest ..
  · exact CoreState.enterException_get _ _ _ .irq _ _ _ .r14Irq (by decide)
  · exact CoreState.enterException_r15 ..
  · rw [State.setCur_cur]
    exact CoreState.enterException_irq_get _ _ _ _ _ _ hq

end Sys2Proof.Machine
end

section
/-! CERTIFICATE. SWI in HLE mode: the idle services, the BIOS service, and the stop without one. -/

namespace Sys2Proof.Machine

/-! ## The idle services -/

/-- The ports while a core waits for the interrupts of a mask (60_exceptions.md R368). -/
def State.waitPorts (s : State) (mask : Word) : Ports :=
  { s.curPorts with
    ieSaved := s.curPorts.ie, ifSaved := s.curPorts.iflag, ie := mask
    iflag := if s.cfg.waitClearsPending then 0#32 else s.curPorts.iflag }

/-- A rule that writes the idle state and its latches, and leaves the ports alone. -/
theorem State.perform_idled_samePorts {s : State} {w : PcCommit} {r : Rule} {idle : IdleState} {count sel : Word}
    (hr : r s.turn s = .done (s.setCur (s.cur.idled idle count sel))) (he : s.cur.execSlot.rmask = 0#16) :
    IdleFrame s (s.perform w r) ∧ (s.perform w r).curPorts = s.curPorts ∧ (s.perform w r).cur.idleState = idle
      ∧ (s.perform w r).cur.waitCount = count ∧ (s.perform w r).cur.waitAnySel = sel :=
  State.perform_idled (by rw [State.setPorts_self, hr]) he

/-- A rule that enters WAIT_INTERRUPT, performed (60_exceptions.md R368). -/
theorem State.perform_enterWaitInterrupt {s : State} {w : PcCommit} {r : Rule} {sel mask : Word}
    (hr : r s.turn s = .done (s.enterWaitInterrupt sel mask)) (he : s.cur.execSlot.rmask = 0#16) :
    IdleFrame s (s.perform w r) ∧ (s.perform w r).curPorts = s.waitPorts mask
      ∧ (s.perform w r).cur.idleState = .waitInterrupt ∧ (s.perform w r).cur.waitCount = s.cur.waitCount
      ∧ (s.perform w r).cur.waitAnySel = sel :=
  State.perform_idled hr he

/-- Settles O58: the four services, each of which writes the idle state, its latches and the ports. -/
theorem swiIdles : Obligations.SwiIdles := by
  unfold Obligations.SwiIdles
  intro i s n hn hhle h hlow hhigh p waiting
  have hexec := exec_swi hn h
  have hrule : swiRule n s.turn s = hleSwi n s.turn s := swiRule_hle hhle
  obtain ⟨-, -, -, hstaged⟩ := h
  refine ⟨_, hexec, ?_⟩
  have hservice : n = 3#8 ∨ n = 4#8 ∨ n = 5#8 ∨ n = 6#8 := by bv_omega
  obtain rfl | rfl | rfl | rfl := hservice
  · obtain ⟨hframe, hports, hidle, hcount, hsel⟩ := State.perform_idled_samePorts (w := .load)
      (r := swiRule 3#8) (idle := .waitLoop) (count := s.cur.reg .r0) (sel := s.cur.waitAnySel) hrule hstaged
    exact ⟨hframe, fun _ => ⟨hidle, hcount, hsel, hports⟩, nofun, nofun, nofun⟩
  · obtain ⟨hframe, hports, hidle, hcount, hsel⟩ := State.perform_enterWaitInterrupt (w := .load) hrule hstaged
    exact ⟨hframe, nofun, fun _ => ⟨hidle, hsel, hcount, hports⟩, nofun, nofun⟩
  · obtain ⟨hframe, hports, hidle, hcount, hsel⟩ := State.perform_enterWaitInterrupt (w := .load) hrule hstaged
    exact ⟨hframe, nofun, nofun, fun _ => ⟨hidle, hsel, hcount, hports⟩, nofun⟩
  · obtain ⟨hframe, hports, hidle, hcount, hsel⟩ := State.perform_idled_samePorts (w := .load)
      (r := swiRule 6#8) (idle := .halted) (count := s.cur.waitCount) (sel := s.cur.waitAnySel) hrule hstaged
    exact ⟨hframe, nofun, nofun, nofun, fun _ => ⟨hidle, hcount, hsel, hports⟩⟩

/-! ## The other services -/

/-- A service number that is not an idle service reaches the BIOS service (60_exceptions.md R366). -/
theorem hleSwi_of_other {n : BitVec 8} (h : n.toNat < 3 ∨ 6 < n.toNat) (k : CoreId) (s : State) :
    hleSwi n k s =
      if s.cfg.biosService then .done (s.biosService k n) else .stop ⟨.noService, n.setWidth 32, s.cur.instrAddr⟩ s := by
  unfold hleSwi
  split
  · omega
  · omega
  · omega
  · omega
  · rfl

/-- Between `s` and `t` a service has acted: of the core that holds the turn only general registers other than r15 have
changed, and no call has been counted (60_exceptions.md R357). -/
structure BiosFrame (s t : State) : Prop where
  biosCalls : t.biosCalls = s.biosCalls
  core : t.cur = { s.cur with regs := t.cur.regs }
  r15 : t.cur.regs.r15 = s.cur.regs.r15

theorem BiosFrame.refl (s : State) : BiosFrame s s := ⟨rfl, rfl, rfl⟩

theorem BiosFrame.trans {s t u : State} (hst : BiosFrame s t) (htu : BiosFrame t u) : BiosFrame s u where
  biosCalls := htu.biosCalls.trans hst.biosCalls
  core := by
    have hcore := htu.core
    rw [hst.core] at hcore
    exact hcore
  r15 := htu.r15.trans hst.r15

/-- An action never writes r15 (60_exceptions.md R366). -/
theorem BiosFrame.biosAct (s : State) (a : BiosAction) : BiosFrame s (s.biosAct a) := by
  cases a with
  | setReg i v =>
    simp only [State.biosAct]
    split
    · exact .refl s
    · next hi =>
      have hset : (s.onCur fun c => c.setReg i v).cur =
          { s.cur with regs := s.cur.regs.set (phys i s.cur.mode) v } := by
        rw [State.onCur_cur, CoreState.setReg_regs_of_ne _ _ hi]
      refine ⟨rfl, ?_, ?_⟩
      · rw [hset]
      · rw [hset]
        exact RegFile.get_set_ne s.cur.regs v fun e => hi (phys_eq_r15.mp e.symm)
  | read | write => exact ⟨rfl, rfl, rfl⟩

theorem BiosFrame.biosActs (l : List BiosAction) (s : State) : BiosFrame s (l.foldl State.biosAct s) := by
  induction l generalizing s with
  | nil => exact .refl s
  | cons a rest ih => exact (BiosFrame.biosAct s a).trans (ih _)

/-- A service, whatever it does, is one more call and the frame of its actions. -/
theorem State.biosService_frame (s : State) (k : CoreId) (n : BitVec 8) :
    ∃ t, BiosFrame s t ∧ s.biosService k n = { t with biosCalls := s.biosCalls + 1 } := by
  have hframe := BiosFrame.biosActs
    (Config.biosActions (.mk k n (RegMap.ofFn fun i => s.cur.reg i) s.mem s.biosCalls)) s
  refine ⟨_, hframe, ?_⟩
  simp only [State.biosService, hframe.biosCalls]

/-- The stages after the rule of a service write scratch lists and the cycle counter only. -/
theorem State.perform_biosService {s : State} {w : PcCommit} {r : Rule} {n : BitVec 8}
    (hr : r s.turn s = .done (s.biosService s.turn n)) (he : s.cur.execSlot.rmask = 0#16) :
    ∃ t, s.perform w r = t ∧ t.biosCalls = s.biosCalls + 1 ∧ t.cur.cpsr = s.cur.cpsr
      ∧ t.cur.regs.r15 = s.cur.regs.r15 ∧ t.cur.needsFlush = s.cur.needsFlush ∧ t.cur.running = s.cur.running
      ∧ t.cur.idleState = s.cur.idleState := by
  obtain ⟨u, hframe, hservice⟩ := s.biosService_frame s.turn n
  rw [hservice] at hr
  have hcore : ({ u with biosCalls := s.biosCalls + 1 } : State).cur = { s.cur with regs := u.cur.regs } := hframe.core
  obtain ⟨m, ht⟩ := State.perform_of_done (w := w) hr (by rw [hcore]; exact he)
  refine ⟨_, ht, rfl, ?_⟩
  rw [State.onCur_cur, hcore]
  simp [hframe.r15]

/-- Settles O59: without a service the rule stops at once; with one its actions reach registers and memory only. -/
theorem swiServices : Obligations.SwiServices := by
  unfold Obligations.SwiServices
  intro i s n hn hhle h hother
  have hexec := exec_swi hn h
  have hrule : swiRule n s.turn s = hleSwi n s.turn s := swiRule_hle hhle
  rw [hleSwi_of_other hother] at hrule
  obtain ⟨-, -, -, hstaged⟩ := h
  refine ⟨fun hnone => ?_, fun hgiven => ?_⟩
  · rw [hnone] at hrule
    exact ⟨_, hexec, State.perform_of_stop hrule⟩
  · rw [hgiven] at hrule
    obtain ⟨t, ht, hkept⟩ := State.perform_biosService (w := .load) hrule hstaged
    exact ⟨t, hexec.trans (congrArg _ ht), hkept⟩

end Sys2Proof.Machine
end

section
/-! CERTIFICATE. The guards of a tick: the halt of the session is final and comes from a stopped core alone, and the
debugger holds the tick. -/

namespace Sys2Proof.Machine

/-! ## The halt of the session and the rules -/

/-- Whatever state a rule starts from, it leaves the halt of the session alone. -/
def Rule.KeepsSession (r : Rule) : Prop := ∀ s : State, (r s.turn s).final.sessionHalted = s.sessionHalted

theorem onCore_keepsSession (f : CoreRule) : Rule.KeepsSession (onCore f) := fun s => by
  unfold onCore
  split <;> rfl

theorem onCoreCfg_keepsSession (f : Config → CoreRule) : Rule.KeepsSession (onCoreCfg f) :=
  fun s => onCore_keepsSession (f s.cfg) s

@[simp] theorem State.writeBase_sessionHalted (s : State) (a : Addressing) (rn : Reg) :
    (s.writeBase a rn).sessionHalted = s.sessionHalted := by
  unfold State.writeBase
  split <;> rfl

@[simp] theorem State.writeBlockBase_sessionHalted (s : State) (w : Bool) (rn : Reg) (v : Word) :
    (s.writeBlockBase w rn v).sessionHalted = s.sessionHalted := by
  unfold State.writeBlockBase
  split <;> rfl

theorem Loader.Reads.sessionHalted_eq {ld : Loader} (h : ld.Reads) (k : CoreId) (s : State) (a : Word) :
    (ld k s a).2.sessionHalted = s.sessionHalted := by
  obtain ⟨a', w, heq⟩ := h k s a
  rw [heq, State.read_snd_sessionHalted]

theorem Storer.Writes.sessionHalted_eq {st : Storer} (h : st.Writes) (s : State) (a v : Word) :
    (st s a v).sessionHalted = s.sessionHalted := by
  obtain ⟨a', w, heq⟩ := h s a v
  rw [heq, State.write_sessionHalted]

@[simp] theorem loadMany_sessionHalted (user : Bool) (l : List Reg) (addr : Word) (s : State) :
    (loadMany user l addr s).sessionHalted = s.sessionHalted := by
  induction l generalizing addr s with
  | nil => rfl
  | cons i rest ih => exact ih _ _

@[simp] theorem storeMany_sessionHalted (value : Reg → Word) (l : List Reg) (addr : Word) (s : State) :
    (storeMany value l addr s).sessionHalted = s.sessionHalted := by
  induction l generalizing addr s with
  | nil => rfl
  | cons i rest ih => exact ih _ _

theorem loadRule_keepsSession {ld : Loader} (h : ld.Reads) (rn rd : Reg) (a : CoreState → Addressing) :
    Rule.KeepsSession (loadRule ld rn rd a) := fun s => by
  simp [loadRule, Result.final, h.sessionHalted_eq]

theorem storeRule_keepsSession {st : Storer} (h : st.Writes) (rn rd : Reg) (a : CoreState → Addressing) :
    Rule.KeepsSession (storeRule st rn rd a) := fun s => by
  simp [storeRule, Result.final, h.sessionHalted_eq]

theorem ldrdRule_keepsSession (rn rd : Reg) (a : CoreState → Addressing) : Rule.KeepsSession (ldrdRule rn rd a) :=
  fun s => by simp [ldrdRule, Result.final]

theorem strdRule_keepsSession (rn rd : Reg) (a : CoreState → Addressing) : Rule.KeepsSession (strdRule rn rd a) :=
  fun s => by simp [strdRule, Result.final]

theorem swapRule_keepsSession {ld : Loader} {st : Storer} (hld : ld.Reads) (hst : st.Writes) (rn rd rm : Reg) :
    Rule.KeepsSession (swapRule ld st rn rd rm) := fun s => by
  simp [swapRule, Result.final, hld.sessionHalted_eq, hst.sessionHalted_eq]

theorem ldmRule_keepsSession (bm : BlockMode) (s w : Bool) (rn : Reg) (list : BitVec 16) :
    Rule.KeepsSession (ldmRule bm s w rn list) := fun st => by simp [ldmRule, Result.final]

theorem stmRule_keepsSession (bm : BlockMode) (s w : Bool) (rn : Reg) (list : BitVec 16) :
    Rule.KeepsSession (stmRule bm s w rn list) := fun st => by simp [stmRule, Result.final]

theorem thumbLoadRule_keepsSession {ld : Loader} (h : ld.Reads) (rd : LoReg) (addr : CoreState → Word) :
    Rule.KeepsSession (thumbLoadRule ld rd addr) := fun s => h.sessionHalted_eq s.turn s _

theorem thumbStoreRule_keepsSession {st : Storer} (h : st.Writes) (rd : LoReg) (addr : CoreState → Word) :
    Rule.KeepsSession (thumbStoreRule st rd addr) := fun s => h.sessionHalted_eq s _ _

theorem pushRule_keepsSession (list : BitVec 16) : Rule.KeepsSession (pushRule list) :=
  fun s => storeMany_sessionHalted _ _ _ s

theorem popRule_keepsSession (list : BitVec 16) : Rule.KeepsSession (popRule list) :=
  fun s => loadMany_sessionHalted _ _ _ s

theorem thumbStmRule_keepsSession (rb : LoReg) (list : BitVec 16) : Rule.KeepsSession (thumbStmRule rb list) :=
  fun s => storeMany_sessionHalted _ _ _ s

theorem thumbLdmRule_keepsSession (rb : LoReg) (list : BitVec 16) : Rule.KeepsSession (thumbLdmRule rb list) :=
  fun s => loadMany_sessionHalted _ _ _ s

theorem State.biosActs_sessionHalted (l : List BiosAction) (s : State) :
    (l.foldl State.biosAct s).sessionHalted = s.sessionHalted := by
  induction l generalizing s with
  | nil => rfl
  | cons a rest ih =>
    have hact : (s.biosAct a).sessionHalted = s.sessionHalted := by
      cases a with
      | setReg i v =>
        simp only [State.biosAct]
        split <;> rfl
      | read | write => rfl
    exact (ih _).trans hact

theorem hleSwi_keepsSession (n : BitVec 8) : Rule.KeepsSession (hleSwi n) := by
  intro s
  unfold hleSwi
  split
  · rfl
  · rfl
  · rfl
  · rfl
  · split
    · exact State.biosActs_sessionHalted _ s
    · rfl

theorem swiRule_keepsSession (n : BitVec 8) : Rule.KeepsSession (swiRule n) := by
  intro s
  unfold swiRule
  split
  · exact onCore_keepsSession _ s
  · exact hleSwi_keepsSession n s

theorem mcrRule_keepsSession (r : Cp15Reg) (rd : Reg) : Rule.KeepsSession (mcrRule r rd) := by
  intro s
  unfold mcrRule
  split
  · rfl
  · rw [State.cp15Write_eq]
    dsimp only
    split <;> rfl

theorem mrcRule_keepsSession (r : Cp15Reg) (rd : Reg) : Rule.KeepsSession (mrcRule r rd) := by
  intro s
  unfold mrcRule
  rw [State.cp15Read_eq]
  split <;> rfl

/-! ## The halt of the session and the instructions -/

/-- The writeback stage writes the core only (41_pipeline.md R155). -/
theorem State.writeStaged_sessionHalted (s : State) (k : CoreId) (w : PcCommit) :
    (s.writeStaged k w).final.sessionHalted = s.sessionHalted := by
  unfold State.writeStaged
  split <;> rfl

/-- A recognized instruction leaves the halt of the session alone if its rule does. -/
theorem Rule.KeepsSession.perform {r : Rule} (h : r.KeepsSession) (s : State) (w : PcCommit) :
    (s.perform w r).sessionHalted = s.sessionHalted := by
  rw [← h s]
  cases hr : r s.turn s with
  | stop d t =>
    rw [State.perform_of_stop hr]
    rfl
  | done t =>
    have hstage := t.writeStaged_sessionHalted s.turn w
    simp only [State.perform, hr]
    split
    all_goals next heq =>
      rw [heq] at hstage
      exact hstage

section
variable {i : Instr} {c : Cond} {w : PcCommit} {r : Rule} {s t : State}

theorem Rule.KeepsSession.runAlways (hr : r.KeepsSession) (h : runAlways i w r s = .next t) :
    t.sessionHalted = s.sessionHalted := by
  unfold Machine.runAlways at h
  split at h <;> cases h
  · exact hr.perform s w
  · rfl

theorem Rule.KeepsSession.runCond (hr : r.KeepsSession) (h : runCond i c w r s = .next t) :
    t.sessionHalted = s.sessionHalted := by
  unfold Machine.runCond at h
  split at h
  · exact hr.runAlways h
  · cases h
    rfl

theorem Rule.KeepsSession.runFastUncond (hr : r.KeepsSession) (h : runFastUncond i r s = .next t) :
    t.sessionHalted = s.sessionHalted := by
  unfold Machine.runFastUncond at h
  split at h
  · exact hr.runAlways h
  · cases h
    rfl

end

/-- No instruction halts the session or ends its halt. -/
theorem exec_sessionHalted {i : Instr} {s t : State} (h : exec i s = .next t) :
    t.sessionHalted = s.sessionHalted := by
  cases i with
  | ldrImm | ldrReg | ldrtImm | ldrtReg => exact (loadRule_keepsSession loadWord_reads _ _ _).runCond h
  | ldrbImm | ldrbReg | ldrbtImm | ldrbtReg => exact (loadRule_keepsSession loadByte_reads _ _ _).runCond h
  | ldrh => exact (loadRule_keepsSession loadHalf_reads _ _ _).runCond h
  | ldrsb => exact (loadRule_keepsSession loadSignedByte_reads _ _ _).runCond h
  | ldrsh => exact (loadRule_keepsSession loadSignedHalf_reads _ _ _).runCond h
  | strImm | strReg | strtImm | strtReg => exact (storeRule_keepsSession storeWord_writes _ _ _).runCond h
  | strbImm | strbReg | strbtImm | strbtReg => exact (storeRule_keepsSession storeByte_writes _ _ _).runCond h
  | strh => exact (storeRule_keepsSession storeHalf_writes _ _ _).runCond h
  | ldrd => exact (ldrdRule_keepsSession _ _ _).runCond h
  | strd => exact (strdRule_keepsSession _ _ _).runCond h
  | ldm => exact (ldmRule_keepsSession _ _ _ _ _).runCond h
  | stm => exact (stmRule_keepsSession _ _ _ _ _).runCond h
  | swp => exact (swapRule_keepsSession loadWord_reads storeWord_writes _ _ _).runCond h
  | swpb => exact (swapRule_keepsSession loadByte_reads storeByte_writes _ _ _).runCond h
  | pld => exact Rule.KeepsSession.runFastUncond (fun _ => rfl) h
  | swi => exact (swiRule_keepsSession _).runCond h
  | bkpt => exact Rule.KeepsSession.runCond (i := .bkpt _) (c := .al) (fun _ => rfl) h
  | mcr => exact (mcrRule_keepsSession _ _).runCond h
  | mrc => exact (mrcRule_keepsSession _ _).runCond h
  | tLdrPc | tLdrReg | tLdrImm | tLdrSp => exact (thumbLoadRule_keepsSession loadWord_reads _ _).runAlways h
  | tLdrbReg | tLdrbImm => exact (thumbLoadRule_keepsSession loadByte_reads _ _).runAlways h
  | tLdrhReg | tLdrhImm => exact (thumbLoadRule_keepsSession loadHalf_reads _ _).runAlways h
  | tLdrsbReg => exact (thumbLoadRule_keepsSession loadSignedByte_reads _ _).runAlways h
  | tLdrshReg => exact (thumbLoadRule_keepsSession loadSignedHalf_reads _ _).runAlways h
  | tStrReg | tStrImm | tStrSp => exact (thumbStoreRule_keepsSession storeWord_writes _ _).runAlways h
  | tStrbReg | tStrbImm => exact (thumbStoreRule_keepsSession storeByte_writes _ _).runAlways h
  | tStrhReg | tStrhImm => exact (thumbStoreRule_keepsSession storeHalf_writes _ _).runAlways h
  | tPush => exact (pushRule_keepsSession _).runAlways h
  | tPop => exact (popRule_keepsSession _).runAlways h
  | tStmia => exact (thumbStmRule_keepsSession _ _).runAlways h
  | tLdmia => exact (thumbLdmRule_keepsSession _ _).runAlways h
  | tSwi => exact (swiRule_keepsSession _).runAlways h
  | blxImm => exact (onCore_keepsSession _).runFastUncond h
  | mul | mla | umull | umlal | smull | smlal => exact (onCoreCfg_keepsSession _).runCond h
  | tMulAlu => exact (onCoreCfg_keepsSession _).runAlways h
  | tLslImm | tLsrImm | tAsrImm | tLslAlu | tLsrAlu | tAsrAlu | tRorAlu | tAddReg | tSubReg | tAddImm3 | tSubImm3
  | tMovImm8 | tAddImm8 | tSubImm8 | tAndAlu | tEorAlu | tAdcAlu | tSbcAlu | tNegAlu | tOrrAlu | tBicAlu | tMvnAlu
  | tCmpImm8 | tTstAlu | tCmpAlu | tCmnAlu | tCmpHi | tAddHi | tMovHi | tAddPc | tAddSp | tIncSp | tDecSp | tBx
  | tBlxReg | tB | tBCond | tBlPrefix | tBlSuffix | tBlxSuffix => exact (onCore_keepsSession _).runAlways h
  | _ => exact (onCore_keepsSession _).runCond h

/-! ## The halt of the session and the tick -/

theorem State.executeSlot_sessionHalted {s t : State} (h : s.executeSlot = .next t) :
    t.sessionHalted = s.sessionHalted := by
  have hunrecognized (h : s.executeUnrecognized = .next t) : t.sessionHalted = s.sessionHalted := by
    simp only [State.executeUnrecognized] at h
    split at h <;> cases h <;> rfl
  simp only [State.executeSlot] at h
  split at h
  · split at h
    · exact exec_sessionHalted h
    · exact hunrecognized h
  · exact hunrecognized h

theorem State.afterExecute_sessionHalted (s : State) : s.afterExecute.sessionHalted = s.sessionHalted := by
  unfold State.afterExecute State.irqDispatch
  split
  · split
    · split <;> rfl
    · rfl
  · rfl

theorem State.pipelineCycle_sessionHalted {s t : State} (h : s.pipelineCycle = .next t) :
    t.sessionHalted = s.sessionHalted := by
  simp only [State.pipelineCycle] at h
  split at h
  · split at h
    · next u hu =>
      cases h
      rw [State.afterExecute_sessionHalted]
      exact State.executeSlot_sessionHalted (s := s.frontEnd.recordDispatch) hu
    · cases h
    · cases h
  · cases h
    rfl

theorem State.beginTick_sessionHalted (s : State) : s.beginTick.sessionHalted = s.sessionHalted := by
  unfold State.beginTick State.pulse
  split <;> rfl

theorem State.idleStep_sessionHalted (s : State) : s.idleStep.sessionHalted = s.sessionHalted := by
  cases h : s.cur.idleState with
  | running =>
    simp only [State.idleStep, h]
    rfl
  | halted =>
    rw [State.idleStep_halted h]
    rfl
  | waitLoop =>
    rw [State.idleStep_waitLoop h]
    rfl
  | waitInterrupt =>
    rw [State.idleStep_waitInterrupt h]
    split <;> rfl

theorem State.settle_sessionHalted (s : State) : s.settle.sessionHalted = s.sessionHalted := by
  obtain ⟨b, h⟩ | ⟨b, h⟩ := s.settle_cases <;> exact (congrArg State.sessionHalted h).trans rfl

/-- The work of a tick does not halt the session. -/
theorem State.work_sessionHalted {s t : State} (h : s.work = .next t) : t.sessionHalted = s.sessionHalted := by
  rw [← s.beginTick_sessionHalted]
  simp only [State.work] at h
  split at h
  · split at h
    · next u hu =>
      cases h
      rw [State.settle_sessionHalted, State.pipelineCycle_sessionHalted hu]
    · cases h
    · cases h
  · cases h
    rw [State.settle_sessionHalted, State.idleStep_sessionHalted]

/-! ## The guards -/

/-- A tick of a halted session (60_exceptions.md R376). -/
theorem step_of_sessionHalted {s : State} (h : s.sessionHalted = true) : step s = .next s := if_pos h

/-- A tick that finds a core stopped (60_exceptions.md R376). -/
theorem step_halts_of_stopped {s : State} (hsession : s.sessionHalted = false)
    (h : s.cores.fast.running = false ∨ s.cores.slow.running = false) :
    step s = .next { s with sessionHalted := true } := by
  obtain hstopped | hstopped := h <;> simp [step, schedulerTick, hsession, hstopped]

section
variable {s : State} (hsession : s.sessionHalted = false) (hfast : s.cores.fast.running = true)
  (hslow : s.cores.slow.running = true)
include hsession hfast hslow

/-- A tick under the debugger's halt (60_exceptions.md R356). -/
theorem step_of_debugHalted (hdebug : s.debugHalted = true) : step s = .next s := by
  simp [step, schedulerTick, hsession, hfast, hslow, hdebug]

/-- A tick that dispatches no instruction meets no breakpoint (60_exceptions.md R355). -/
theorem step_of_no_dispatch (hdebug : s.debugHalted = false) (haddr : s.breakpointAt = none) : step s = s.work := by
  simp [step, schedulerTick, hsession, hfast, hslow, hdebug, haddr]

/-- A tick that dispatches the instruction at `a`: the resume, then the breakpoint (60_exceptions.md R355, R356). -/
theorem step_of_dispatch (hdebug : s.debugHalted = false) {a : Word} (haddr : s.breakpointAt = some a) :
    step s =
      if s.bpResume then { s with bpResume := false }.work
      else if s.breakpoints.contains a then .next { s with debugHalted := true }
      else s.work := by
  simp [step, schedulerTick, hsession, hfast, hslow, hdebug, haddr]

end

/-- Settles O19: the two guards of the session come first, and nothing after them writes its halt. -/
theorem haltIsFinal : Obligations.HaltIsFinal := by
  unfold Obligations.HaltIsFinal
  intro s
  refine ⟨step_of_sessionHalted, step_halts_of_stopped, fun t h hsession hfast hslow => ?_⟩
  have hwork {s' : State} (hs : s'.sessionHalted = false) (hw : s'.work = .next t) : t.sessionHalted = false :=
    (State.work_sessionHalted hw).trans hs
  cases hdebug : s.debugHalted with
  | true =>
    rw [step_of_debugHalted hsession hfast hslow hdebug] at h
    cases h
    exact hsession
  | false =>
    cases haddr : s.breakpointAt with
    | none =>
      rw [step_of_no_dispatch hsession hfast hslow hdebug haddr] at h
      exact hwork hsession h
    | some a =>
      rw [step_of_dispatch hsession hfast hslow hdebug haddr] at h
      split at h
      · exact hwork (s' := { s with bpResume := false }) hsession h
      split at h
      · cases h
        exact hsession
      · exact hwork hsession h

/-- Settles O20: past the guards of the session, the debugger's halt, the resume and the breakpoint. -/
theorem debuggerHolds : Obligations.DebuggerHolds := by
  unfold Obligations.DebuggerHolds
  intro s hsession hfast hslow
  refine ⟨step_of_debugHalted hsession hfast hslow, fun hdebug hidle hdecoded => ?_⟩
  have haddr : s.breakpointAt = some s.cur.instrAddr := if_pos ⟨hidle, hdecoded⟩
  rw [step_of_dispatch hsession hfast hslow hdebug haddr]
  refine ⟨fun hresume hbreak => ?_, fun hresume => if_pos hresume⟩
  rw [if_neg (Bool.eq_false_iff.mp hresume), if_pos hbreak]

end Sys2Proof.Machine
end
